-- ==== Sys2Proof/Word.lean ====
section
/-! DEFINITION. The word types of the block (00_scope.md R8, R12; 10_state.md R21; 30_encoding.md R61). -/

namespace Sys2Proof

/-- An unsigned 8-bit value; bit 7 has weight 0x80 (R12). -/
abbrev Byte := BitVec 8

/-- An unsigned 16-bit value: a CRC state, `ILEN`, a rice identifier. -/
abbrev Half := BitVec 16

/-- An unsigned 32-bit value: the argument of a command (`ARG_WIDTH`) and `RESULT` (`RESULT_WIDTH`). -/
abbrev Word := BitVec 32

/-- A command word, `CMD_WIDTH` bits: `OPCODE` in bits 39:32, `ARG` in bits 31:0 (R61). -/
abbrev CmdWord := BitVec 40

/-- The 22 bytes of a frame, offset 0 first (R21, R40). -/
abbrev Frame := Vector Byte 22

end Sys2Proof
end

