-- ==== Sys2Proof/Config.lean ====
section
/-! DEFINITION. The fixed parameters of the block (00_scope.md R8: "A model takes each as a constant").
`CMD_LATENCY` (R9) is an open parameter: the clock-edge model takes it as an argument, so it has no constant here. -/

namespace Sys2Proof.Config

/-- `PAYLOAD_LEN`, 20 bytes. -/
@[simp] abbrev payloadLen : Nat := 20

/-- `FRAME_LEN`, 22 bytes. -/
@[simp] abbrev frameLen : Nat := 22

/-- `MIN_PARSE_LEN`, 5 bytes. -/
@[simp] abbrev minParseLen : Nat := 5

/-- `CRC_POLY`. -/
@[simp] abbrev crcPoly : Half := 0x1021#16

/-- `CRC_INIT`. -/
@[simp] abbrev crcInit : Half := 0x0000#16

/-- `CRC_XOROUT`: "no final XOR". -/
@[simp] abbrev crcXorOut : Half := 0x0000#16

/-- `SCHED_CEILING`, 1440 minutes. -/
@[simp] abbrev schedCeiling : Nat := 1440

/-- `TASTE_MAX`. -/
@[simp] abbrev tasteMax : Nat := 2

/-- `RICE_ID_MAX`. -/
@[simp] abbrev riceIdMax : Nat := 0xFFFF

/-- The value at which `ILEN` saturates (`ILEN_WIDTH`: 16 bits, saturating). -/
@[simp] abbrev ilenMax : Half := 0xFFFF#16

/-- The largest field id of `GET_FIELD` (30_encoding.md R62). -/
@[simp] abbrev fieldIdMax : Nat := 14

/-- The largest frame offset (30_encoding.md R62). -/
@[simp] abbrev offsetMax : Nat := 21

end Sys2Proof.Config
end

