-- ==== Sys2Proof/Syntax.lean ====
section
/-! DEFINITION. The commands of the block, one constructor per row of spec/opcode_table.json (30_encoding.md R63). -/

namespace Sys2Proof

/-- A command. The operand is the one its `ARG` form gives (30_encoding.md R62): a byte `b`, a Boolean `v`,
an unsigned 32-bit `n`, or a frame offset `k`. -/
inductive Instr where
  /-- `NOP` (R202). -/
  | nop
  /-- `CRC_CLEAR` (R82). -/
  | crcClear
  /-- `CRC_FEED b` (R83). -/
  | crcFeed (b : Byte)
  /-- `CRC_READ` (R84). -/
  | crcRead
  /-- `CRC_CHECK` (R85). -/
  | crcCheck
  /-- `IN_CLEAR` (R100). -/
  | inClear
  /-- `IN_BYTE b` (R101). -/
  | inByte (b : Byte)
  /-- `LOAD` (R104). -/
  | load
  /-- `GET_FIELD.DEVTYPE` (R127). -/
  | getDevtype
  /-- `GET_FIELD.SUBTYPE` (R128). -/
  | getSubtype
  /-- `GET_FIELD.MENU_INDEX` (R129). -/
  | getMenuIndex
  /-- `GET_FIELD.MENU_ID` (R130). -/
  | getMenuId
  /-- `GET_FIELD.FLAGS` (R131). -/
  | getFlags
  /-- `GET_FIELD.DURATION` (R132). -/
  | getDuration
  /-- `GET_FIELD.MAX_TIME` (R133). -/
  | getMaxTime
  /-- `GET_FIELD.MIN_TIME` (R134). -/
  | getMinTime
  /-- `GET_FIELD.SCHEDULE` (R135). -/
  | getSchedule
  /-- `GET_FIELD.SCHED_EN` (R136). -/
  | getSchedEn
  /-- `GET_FIELD.AKW` (R137). -/
  | getAkw
  /-- `GET_FIELD.RICE_ID` (R138). -/
  | getRiceId
  /-- `GET_FIELD.TASTE` (R139). -/
  | getTaste
  /-- `GET_FIELD.CAPS` (R140). -/
  | getCaps
  /-- `GET_FIELD.TRAILER` (R141). -/
  | getTrailer
  /-- `READ_BYTE k` (R145); well formed when `k` is at most 21. -/
  | readByte (k : BitVec 5)
  /-- `SET_DURATION n` (R152). -/
  | setDuration (n : Word)
  /-- `SET_SCHEDULE n` (R156). -/
  | setSchedule (n : Word)
  /-- `SET_SCHED_EN v` (R157). -/
  | setSchedEn (v : Bool)
  /-- `SET_AKW v` (R158). -/
  | setAkw (v : Bool)
  /-- `SET_RICE_ID n` (R159). -/
  | setRiceId (n : Word)
  /-- `SET_TASTE n` (R160). -/
  | setTaste (n : Word)
  /-- `OPT_CLEAR` (R180). -/
  | optClear
  /-- `OPT_DURATION n` (R181). -/
  | optDuration (n : Word)
  /-- `OPT_SCHEDULE n` (R182). -/
  | optSchedule (n : Word)
  /-- `OPT_AKW v` (R183). -/
  | optAkw (v : Bool)
  /-- `OPT_TASTE n` (R184). -/
  | optTaste (n : Word)
  /-- `LOAD_OPT` (R186). -/
  | loadOpt
  /-- `SERIALIZE` (R200). -/
  | serialize
  deriving DecidableEq, Repr

end Sys2Proof
end

