-- ==== Sys2Proof/WellFormed.lean ====
section
/-! DEFINITION. Which terms of `Instr` are commands: the operand lies in the legal set of its form (30_encoding.md R62). -/

namespace Sys2Proof

/-- The operand types already carry the `BYTE`, `BOOL` and `U32` forms and the field ids; the one form a term can
break is `OFFSET`, whose five bits must name an offset of at most 21 (R62, R145). -/
def Instr.wellFormed (i : Instr) : Bool :=
  match i with
  | .nop => true
  | .crcClear => true
  | .crcFeed _ => true
  | .crcRead => true
  | .crcCheck => true
  | .inClear => true
  | .inByte _ => true
  | .load => true
  | .getDevtype => true
  | .getSubtype => true
  | .getMenuIndex => true
  | .getMenuId => true
  | .getFlags => true
  | .getDuration => true
  | .getMaxTime => true
  | .getMinTime => true
  | .getSchedule => true
  | .getSchedEn => true
  | .getAkw => true
  | .getRiceId => true
  | .getTaste => true
  | .getCaps => true
  | .getTrailer => true
  | .readByte k => decide (k.toNat ≤ Config.offsetMax)
  | .setDuration _ => true
  | .setSchedule _ => true
  | .setSchedEn _ => true
  | .setAkw _ => true
  | .setRiceId _ => true
  | .setTaste _ => true
  | .optClear => true
  | .optDuration _ => true
  | .optSchedule _ => true
  | .optAkw _ => true
  | .optTaste _ => true
  | .loadOpt => true
  | .serialize => true

end Sys2Proof
end

