-- ==== Sys2Proof/Decode.lean ====
section
/-! DEFINITION. Command words (30_encoding.md R61 to R65): the decoder, total on all 2^40 words and rejecting by name,
and the encoder, written from the opcode map. -/

namespace Sys2Proof

/-- `OPCODE`, bits 39:32 of a command word (R61). -/
def opcodeOf (w : CmdWord) : Byte := w.extractLsb' 32 8

/-- `ARG`, bits 31:0 of a command word (R61). -/
def argOf (w : CmdWord) : Word := w.extractLsb' 0 32

/-- The word with the given opcode and argument: `(OPCODE << 32) | ARG` (R61, R69). -/
def commandWord (opcode : Byte) (arg : Word) : CmdWord := opcode ++ arg

/-- Why a word is illegal (R64). The hardware reports `ERR_ILLEGAL` for each of them alike (log entry 14). -/
inductive DecodeError where
  /-- R64 (a): the opcode is not in the map. -/
  | badOpcode (opcode : Byte)
  /-- R64 (b): a nonzero `ARG` for the form `NONE`. -/
  | argNotZero (arg : Word)
  /-- R64 (b): nonzero `ARG[31:8]` for the form `BYTE`. -/
  | argNotByte (arg : Word)
  /-- R64 (b): nonzero `ARG[31:1]` for the form `BOOL`. -/
  | argNotBool (arg : Word)
  /-- R64 (b): `ARG > 14` for the form `FIELD`. -/
  | badFieldId (arg : Word)
  /-- R64 (b): `ARG > 21` for the form `OFFSET`. -/
  | badOffset (arg : Word)
  deriving DecidableEq, Repr

/-- Form `NONE`: `ARG = 0`, no operand (R62). -/
def formNone (i : Instr) (arg : Word) : Except DecodeError Instr :=
  if arg = 0 then .ok i else .error (.argNotZero arg)

/-- Form `BYTE`: `ARG[31:8] = 0`, operand `ARG[7:0]` (R62). -/
def formByte (mk : Byte → Instr) (arg : Word) : Except DecodeError Instr :=
  if arg.extractLsb' 8 24 = 0 then .ok (mk (arg.extractLsb' 0 8)) else .error (.argNotByte arg)

/-- Form `BOOL`: `ARG[31:1] = 0`, operand `ARG[0]` (R62). -/
def formBool (mk : Bool → Instr) (arg : Word) : Except DecodeError Instr :=
  if arg.extractLsb' 1 31 = 0 then .ok (mk (arg.getLsbD 0)) else .error (.argNotBool arg)

/-- Form `U32`: any `ARG`, operand `ARG` (R62). -/
def formU32 (mk : Word → Instr) (arg : Word) : Except DecodeError Instr :=
  .ok (mk arg)

/-- Form `FIELD`: `ARG` is a field id of at most 14 (R62, R63). -/
def formField (arg : Word) : Except DecodeError Instr :=
  match arg.toNat with
  | 0 => .ok .getDevtype
  | 1 => .ok .getSubtype
  | 2 => .ok .getMenuIndex
  | 3 => .ok .getMenuId
  | 4 => .ok .getFlags
  | 5 => .ok .getDuration
  | 6 => .ok .getMaxTime
  | 7 => .ok .getMinTime
  | 8 => .ok .getSchedule
  | 9 => .ok .getSchedEn
  | 10 => .ok .getAkw
  | 11 => .ok .getRiceId
  | 12 => .ok .getTaste
  | 13 => .ok .getCaps
  | 14 => .ok .getTrailer
  | _ => .error (.badFieldId arg)

/-- Form `OFFSET`: `ARG <= 21`, operand `ARG[4:0]` (R62). -/
def formOffset (mk : BitVec 5 → Instr) (arg : Word) : Except DecodeError Instr :=
  if arg.toNat ≤ Config.offsetMax then .ok (mk (arg.extractLsb' 0 5)) else .error (.badOffset arg)

/-- The opcode map of R63, on an opcode and an argument. -/
def decodeFields (opcode : Byte) (arg : Word) : Except DecodeError Instr :=
  match opcode.toNat with
  | 0x00 => formNone .nop arg
  | 0x01 => formNone .crcClear arg
  | 0x02 => formByte .crcFeed arg
  | 0x03 => formNone .crcRead arg
  | 0x04 => formNone .crcCheck arg
  | 0x10 => formNone .inClear arg
  | 0x11 => formByte .inByte arg
  | 0x12 => formNone .load arg
  | 0x20 => formField arg
  | 0x21 => formOffset .readByte arg
  | 0x30 => formU32 .setDuration arg
  | 0x31 => formU32 .setSchedule arg
  | 0x32 => formBool .setSchedEn arg
  | 0x33 => formBool .setAkw arg
  | 0x34 => formU32 .setRiceId arg
  | 0x35 => formU32 .setTaste arg
  | 0x40 => formNone .optClear arg
  | 0x41 => formU32 .optDuration arg
  | 0x42 => formU32 .optSchedule arg
  | 0x43 => formBool .optAkw arg
  | 0x44 => formU32 .optTaste arg
  | 0x45 => formNone .loadOpt arg
  | 0x50 => formNone .serialize arg
  | _ => .error (.badOpcode opcode)

/-- The decoder, total on all 2^40 words (R65): every word is one row of R63 or illegal (R64). -/
def decode (w : CmdWord) : Except DecodeError Instr :=
  decodeFields (opcodeOf w) (argOf w)

/-- The opcode of a command (R63). -/
def Instr.opcode (i : Instr) : Byte :=
  match i with
  | .nop => 0x00
  | .crcClear => 0x01
  | .crcFeed _ => 0x02
  | .crcRead => 0x03
  | .crcCheck => 0x04
  | .inClear => 0x10
  | .inByte _ => 0x11
  | .load => 0x12
  | .getDevtype => 0x20
  | .getSubtype => 0x20
  | .getMenuIndex => 0x20
  | .getMenuId => 0x20
  | .getFlags => 0x20
  | .getDuration => 0x20
  | .getMaxTime => 0x20
  | .getMinTime => 0x20
  | .getSchedule => 0x20
  | .getSchedEn => 0x20
  | .getAkw => 0x20
  | .getRiceId => 0x20
  | .getTaste => 0x20
  | .getCaps => 0x20
  | .getTrailer => 0x20
  | .readByte _ => 0x21
  | .setDuration _ => 0x30
  | .setSchedule _ => 0x31
  | .setSchedEn _ => 0x32
  | .setAkw _ => 0x33
  | .setRiceId _ => 0x34
  | .setTaste _ => 0x35
  | .optClear => 0x40
  | .optDuration _ => 0x41
  | .optSchedule _ => 0x42
  | .optAkw _ => 0x43
  | .optTaste _ => 0x44
  | .loadOpt => 0x45
  | .serialize => 0x50

/-- The argument of a command: its operand zero-extended, or its field id, or 0 (R62, R63). -/
def Instr.arg (i : Instr) : Word :=
  match i with
  | .nop => 0
  | .crcClear => 0
  | .crcFeed b => b.setWidth 32
  | .crcRead => 0
  | .crcCheck => 0
  | .inClear => 0
  | .inByte b => b.setWidth 32
  | .load => 0
  | .getDevtype => 0
  | .getSubtype => 1
  | .getMenuIndex => 2
  | .getMenuId => 3
  | .getFlags => 4
  | .getDuration => 5
  | .getMaxTime => 6
  | .getMinTime => 7
  | .getSchedule => 8
  | .getSchedEn => 9
  | .getAkw => 10
  | .getRiceId => 11
  | .getTaste => 12
  | .getCaps => 13
  | .getTrailer => 14
  | .readByte k => k.setWidth 32
  | .setDuration n => n
  | .setSchedule n => n
  | .setSchedEn v => if v then 1 else 0
  | .setAkw v => if v then 1 else 0
  | .setRiceId n => n
  | .setTaste n => n
  | .optClear => 0
  | .optDuration n => n
  | .optSchedule n => n
  | .optAkw v => if v then 1 else 0
  | .optTaste n => n
  | .loadOpt => 0
  | .serialize => 0

/-- The word of a command (R61, R69). -/
def encode (i : Instr) : CmdWord := commandWord i.opcode i.arg

/-- One row of spec/opcode_table.json: a word belongs to the row when its bits under `mask` are `pattern`. -/
structure TableRow where
  pattern : CmdWord
  mask : CmdWord
  deriving DecidableEq, Repr

/-- The row of spec/opcode_table.json a constructor stands for, its "match" and its "mask" as the table has them. -/
def Instr.tableRow (i : Instr) : TableRow :=
  match i with
  | .nop => ⟨0x0000000000, 0xFFFFFFFFFF⟩
  | .crcClear => ⟨0x0100000000, 0xFFFFFFFFFF⟩
  | .crcFeed _ => ⟨0x0200000000, 0xFFFFFFFF00⟩
  | .crcRead => ⟨0x0300000000, 0xFFFFFFFFFF⟩
  | .crcCheck => ⟨0x0400000000, 0xFFFFFFFFFF⟩
  | .inClear => ⟨0x1000000000, 0xFFFFFFFFFF⟩
  | .inByte _ => ⟨0x1100000000, 0xFFFFFFFF00⟩
  | .load => ⟨0x1200000000, 0xFFFFFFFFFF⟩
  | .getDevtype => ⟨0x2000000000, 0xFFFFFFFFFF⟩
  | .getSubtype => ⟨0x2000000001, 0xFFFFFFFFFF⟩
  | .getMenuIndex => ⟨0x2000000002, 0xFFFFFFFFFF⟩
  | .getMenuId => ⟨0x2000000003, 0xFFFFFFFFFF⟩
  | .getFlags => ⟨0x2000000004, 0xFFFFFFFFFF⟩
  | .getDuration => ⟨0x2000000005, 0xFFFFFFFFFF⟩
  | .getMaxTime => ⟨0x2000000006, 0xFFFFFFFFFF⟩
  | .getMinTime => ⟨0x2000000007, 0xFFFFFFFFFF⟩
  | .getSchedule => ⟨0x2000000008, 0xFFFFFFFFFF⟩
  | .getSchedEn => ⟨0x2000000009, 0xFFFFFFFFFF⟩
  | .getAkw => ⟨0x200000000A, 0xFFFFFFFFFF⟩
  | .getRiceId => ⟨0x200000000B, 0xFFFFFFFFFF⟩
  | .getTaste => ⟨0x200000000C, 0xFFFFFFFFFF⟩
  | .getCaps => ⟨0x200000000D, 0xFFFFFFFFFF⟩
  | .getTrailer => ⟨0x200000000E, 0xFFFFFFFFFF⟩
  | .readByte _ => ⟨0x2100000000, 0xFFFFFFFFE0⟩
  | .setDuration _ => ⟨0x3000000000, 0xFF00000000⟩
  | .setSchedule _ => ⟨0x3100000000, 0xFF00000000⟩
  | .setSchedEn _ => ⟨0x3200000000, 0xFFFFFFFFFE⟩
  | .setAkw _ => ⟨0x3300000000, 0xFFFFFFFFFE⟩
  | .setRiceId _ => ⟨0x3400000000, 0xFF00000000⟩
  | .setTaste _ => ⟨0x3500000000, 0xFF00000000⟩
  | .optClear => ⟨0x4000000000, 0xFFFFFFFFFF⟩
  | .optDuration _ => ⟨0x4100000000, 0xFF00000000⟩
  | .optSchedule _ => ⟨0x4200000000, 0xFF00000000⟩
  | .optAkw _ => ⟨0x4300000000, 0xFFFFFFFFFE⟩
  | .optTaste _ => ⟨0x4400000000, 0xFF00000000⟩
  | .loadOpt => ⟨0x4500000000, 0xFFFFFFFFFF⟩
  | .serialize => ⟨0x5000000000, 0xFFFFFFFFFF⟩

/-- The command word a table row's number stands for: a command is ONE 40-bit word, bit 0 its least significant bit,
and every bit from `nbits` up is 0 (log entry 9). -/
def tableWord (nbits w : Nat) : CmdWord := BitVec.ofNat 40 (w % 2 ^ nbits)

/-- The command the decoder reads from a word numbered as spec/opcode_table.json numbers it; none where it refuses. -/
def decodeTableWord (nbits w : Nat) : Option Instr :=
  match decode (tableWord nbits w) with
  | .ok i => some i
  | .error _ => none

end Sys2Proof
end

