-- ==== Sys2Proof/Machine/State.lean ====
section
/-! DEFINITION. The architectural state (10_state.md R20 to R35), the status codes, and the reasons a step can stop. -/

namespace Sys2Proof.Machine

/-- The status codes (60_exceptions.md R220: "A model's status type has exactly the nine constructors 0 to 8").
The 4-bit code of each is `Status.code`. -/
inductive Status where
  /-- 0: the command did its work. -/
  | ok
  /-- 1: a mutator's capability is false; nothing written. -/
  | ignored
  /-- 2: fewer than 5 bytes staged at `LOAD` or `LOAD_OPT`. -/
  | errFormat
  /-- 3: the running CRC of the staged input is not zero. -/
  | errIntegrity
  /-- 4: taste index above 2. -/
  | errValidation
  /-- 5: good CRC but the staged length is not 22. -/
  | errLength
  /-- 6: an hours part does not fit its field. -/
  | errRange
  /-- 7: a frame command with `VALID = 0`. -/
  | errNoProfile
  /-- 8: an undecodable command word. -/
  | errIllegal
  deriving DecidableEq, Repr

/-- What the host can do to the block at the transaction level (30_encoding.md R60, R66): offer a command word, or
hold `rst_n` at 0 for a clock edge. -/
inductive HostAction where
  | command (w : CmdWord)
  | reset
  deriving DecidableEq, Repr

/-- The state: the fourteen registers of 10_state.md R20, the response port's `rsp_valid` (30_encoding.md R66, R67),
and what the host has still to do (the model's own field, log entry 1). -/
structure State where
  /-- `F`, the frame register (R21). -/
  f : Frame
  /-- `VALID` (R22). -/
  valid : Bool
  /-- `IBUF`, the staging buffer (R24). -/
  ibuf : Frame
  /-- `ILEN`, saturating at 0xFFFF (R25). -/
  ilen : Half
  /-- `ICRC`, the running CRC of the staged input (R26). -/
  icrc : Half
  /-- `CRC`, the host's accumulator (R27). -/
  crc : Half
  /-- `OPT_PRESENT`: bit 0 duration, 1 schedule, 2 auto-keep-warm, 3 taste (R28). -/
  optPresent : BitVec 4
  /-- `OPT_DUR` (R28). -/
  optDur : Word
  /-- `OPT_SCHED` (R28). -/
  optSched : Word
  /-- `OPT_AKW` (R28). -/
  optAkw : Bool
  /-- `OPT_TASTE` (R28). -/
  optTaste : Word
  /-- `STATUS` (R29). -/
  status : Status
  /-- `RESULT` (R30). -/
  result : Word
  /-- `ERRLOG`, sticky (R32). -/
  errlog : Half
  /-- `rsp_valid` (R66, R67): a response has been given since reset (log entry 4). -/
  rspValid : Bool
  /-- What the host has still to do, the next first (log entry 1). -/
  pending : List HostAction
  deriving DecidableEq, Repr

/-- No command and no input stops the block: every error is a response and the next command can always be issued
(60_exceptions.md R228, 70_reset_and_hazards.md R252). So there is no fault, and the type is empty (log entry 3). -/
inductive Fault where
  deriving DecidableEq, Repr

/-- Why a step has no meaning. -/
inductive Refusal where
  /-- Raised by an arm of `exec` whose instruction has no meaning yet. No arm does; safe. -/
  | notModelled (mnemonic : String)
  deriving DecidableEq, Repr

/-- The state right after reset: every register as the table of 10_state.md R35 has it, `rsp_valid = 0` (R67), and
nothing pending. -/
def State.reset : State where
  f := Vector.replicate 22 0
  valid := false
  ibuf := Vector.replicate 22 0
  ilen := 0
  icrc := 0
  crc := 0
  optPresent := 0
  optDur := 0
  optSched := 0
  optAkw := false
  optTaste := 0
  status := .ok
  result := 0
  errlog := 0
  rspValid := false
  pending := []

end Sys2Proof.Machine
end

