-- ==== Sys2Proof/Machine/Operands.lean ====
section
/-! DEFINITION. The bit-field extractor and the bit-field packer: every field of the frame as it is read and as it is
written (00_scope.md R14; 20_memory.md R41 to R46; 42_extract.md; 43_mutate.md R150 to R160). -/

namespace Sys2Proof.Machine

/-- `be16(hi, lo) = (hi << 8) | lo` (R14, R43). -/
def be16 (hi lo : Byte) : Half := hi ++ lo

/-- `be32(b0, b1, b2, b3)`, big-endian (R14, R43). -/
def be32 (b0 b1 b2 b3 : Byte) : Word := be16 b0 b1 ++ be16 b2 b3

/-- `hm(h, m) = h * 60 + m`, a natural number (R14, R44). -/
def hm (h m : Nat) : Nat := h * 60 + m

/-! Reading a field. -/

/-- Offset 0 (R41, R127). -/
def deviceType (f : Frame) : Byte := f[0]

/-- Offset 1 (R41, R128). -/
def subType (f : Frame) : Byte := f[1]

/-- Offset 2 (R41, R129). -/
def menuIndex (f : Frame) : Byte := f[2]

/-- Offsets 3 to 6 (R41, R125, R130). -/
def menuId (f : Frame) : Word := be32 f[3] f[4] f[5] f[6]

/-- Offset 7, all its bits as stored (R41, R131). -/
def flagByte (f : Frame) : Byte := f[7]

/-- Offsets 8 and 9, in minutes (R44, R132). -/
def duration (f : Frame) : Nat := hm f[8].toNat f[9].toNat

/-- Offsets 10 and 11, in minutes (R44, R133). -/
def maxTime (f : Frame) : Nat := hm f[10].toNat f[11].toNat

/-- Offsets 12 and 13, in minutes (R44, R134). -/
def minTime (f : Frame) : Nat := hm f[12].toNat f[13].toNat

/-- `SCHED_HOURS = F[14][6:0]` (R46). -/
def schedHours (f : Frame) : BitVec 7 := f[14].extractLsb' 0 7

/-- `SCHED_MINS = F[15][6:0]` (R46). -/
def schedMins (f : Frame) : BitVec 7 := f[15].extractLsb' 0 7

/-- The schedule in minutes, the two flag bits masked off (R135). -/
def schedule (f : Frame) : Nat := hm (schedHours f).toNat (schedMins f).toNat

/-- `SCHED_EN = F[14][7]` (R46, R136). -/
def schedEn (f : Frame) : Bool := f[14].getLsbD 7

/-- `AKW = F[15][7]` (R46, R137). -/
def autoKeepWarm (f : Frame) : Bool := f[15].getLsbD 7

/-- Offsets 17 and 18 (R41, R138). -/
def riceId (f : Frame) : Half := be16 f[17] f[18]

/-- Offset 19, as stored (R41, R139). -/
def taste (f : Frame) : Byte := f[19]

/-- Offsets 20 and 21, the stored checksum (R41, R141). -/
def trailer (f : Frame) : Half := be16 f[20] f[21]

/-- The payload `F[0..19]` in offset order (R16, R21). -/
def payload (f : Frame) : List Byte := f.toList.take Config.payloadLen

/-- A flag as a 32-bit value (R12, `zext_32`). -/
def flagWord (v : Bool) : Word := if v then 1 else 0

/-- A count of minutes as a 32-bit value (R126); every such count is below 2^32. -/
def minutesWord (n : Nat) : Word := BitVec.ofNat 32 n

/-! The clamp mux-tree and the split unit. -/

/-- The range-clamped mux-tree (R150). -/
def clamp (x lo hi : Nat) : Nat := if x < lo then lo else if x > hi then hi else x

/-- `split60(x) = (x div 60, x mod 60)` (R153). -/
def split60 (x : Nat) : Nat × Nat := (x / 60, x % 60)

/-! Packing a field. Each writes the bits its name says and keeps every other bit. -/

/-- Bit 7 of a byte set to `v`, bits 6:0 kept: `(x & 0x7F) | (v << 7)` (R157, R158). -/
def withBit7 (x : Byte) (v : Bool) : Byte := (x &&& 0x7F) ||| (if v then 0x80 else 0x00)

/-- `F[8] <- h; F[9] <- m` (R152). -/
def packDuration (h m : Nat) (f : Frame) : Frame :=
  (f.set 8 (BitVec.ofNat 8 h)).set 9 (BitVec.ofNat 8 m)

/-- `F[14] <- 0x80 | h; F[15] <- (F[15] & 0x80) | m` (R156). -/
def packSchedule (h m : Nat) (f : Frame) : Frame :=
  (f.set 14 (0x80 ||| BitVec.ofNat 8 h)).set 15 ((f[15] &&& 0x80) ||| BitVec.ofNat 8 m)

/-- `F[14] <- (F[14] & 0x7F) | (v << 7)` (R157). -/
def packSchedEn (v : Bool) (f : Frame) : Frame := f.set 14 (withBit7 f[14] v)

/-- `F[15] <- (F[15] & 0x7F) | (v << 7)` (R158). -/
def packAkw (v : Bool) (f : Frame) : Frame := f.set 15 (withBit7 f[15] v)

/-- `F[17] <- r[15:8]; F[18] <- r[7:0]` (R159). -/
def packRiceId (r : Half) (f : Frame) : Frame :=
  (f.set 17 (r.extractLsb' 8 8)).set 18 (r.extractLsb' 0 8)

/-- `F[19] <- n[7:0]` (R160). -/
def packTaste (n : Word) (f : Frame) : Frame := f.set 19 (n.extractLsb' 0 8)

/-- `F[20] <- c[15:8]; F[21] <- c[7:0]`, the big-endian trailer (R200). -/
def packTrailer (c : Half) (f : Frame) : Frame :=
  (f.set 20 (c.extractLsb' 8 8)).set 21 (c.extractLsb' 0 8)

end Sys2Proof.Machine
end

