-- ==== Sys2Proof/Machine/Flags.lean ====
section
/-! DEFINITION. Status codes and the sticky error bits (60_exceptions.md R220, R222; 10_state.md R32), and the five
capability predicates (42_extract.md R120 to R124, R140). -/

namespace Sys2Proof.Machine

/-- The 4-bit code of a status, the value of the register `STATUS` (R29, R220). -/
def Status.code (st : Status) : BitVec 4 :=
  match st with
  | .ok => 0
  | .ignored => 1
  | .errFormat => 2
  | .errIntegrity => 3
  | .errValidation => 4
  | .errLength => 5
  | .errRange => 6
  | .errNoProfile => 7
  | .errIllegal => 8

/-- An error is a code of 2 or more (R220, R222); `OK` and `IGNORED` are successes. -/
def Status.isError (st : Status) : Bool := decide (2 ≤ st.code.toNat)

/-- What a command that ends with status `st` sets in `ERRLOG`: bit `st` for an error, nothing for a success (R222). -/
def errlogBit (st : Status) : Half := if st.isError then 1#16 <<< st.code.toNat else 0

/-- `can_schedule(F) = F[7][6]` (R120). -/
def canSchedule (f : Frame) : Bool := (flagByte f).getLsbD 6

/-- `can_akw(F) = F[7][5]` (R121). -/
def canAkw (f : Frame) : Bool := (flagByte f).getLsbD 5

/-- `can_set_duration(F)`: max cook time above min cook time, in minutes (R122). -/
def canSetDuration (f : Frame) : Bool := decide (maxTime f > minTime f)

/-- `can_choose_rice(F)`: menu identifier 1 or 2 (R123). -/
def canChooseRice (f : Frame) : Bool := menuId f == 1 || menuId f == 2

/-- `can_taste(F)`: menu identifier 1 (R124). -/
def canTaste (f : Frame) : Bool := menuId f == 1

/-- The five predicates as one value (R140). -/
def caps (f : Frame) : Word :=
  (flagWord (canSchedule f) <<< 0) ||| (flagWord (canAkw f) <<< 1) ||| (flagWord (canSetDuration f) <<< 2)
    ||| (flagWord (canChooseRice f) <<< 3) ||| (flagWord (canTaste f) <<< 4)

end Sys2Proof.Machine
end

