-- ==== Sys2Proof/Machine/Ops.lean ====
section
/-! DEFINITION. The named operations over the registers: the CRC function (40_crc.md R80, R81), the response that ends
every command and the one way an error is taken (60_exceptions.md R222, 00_scope.md R13), the staging and option
registers, the parse verdict (41_load.md R102), and the two shapes a frame command has (42_extract.md R126,
43_mutate.md R151). The block has no memory, no trap entry and no trap return (R13, R228). -/

namespace Sys2Proof.Machine

/-- What a command or a step answers. -/
abbrev Answer := Host.Outcome State Fault Refusal

/-! The CRC function. -/

/-- One round of R81: shift left by one, and subtract the polynomial when bit 15 was set. -/
def crcShift (c : Half) : Half :=
  if c.getLsbD 15 then (c <<< 1) ^^^ Config.crcPoly else c <<< 1

/-- `n` rounds. -/
def crcRounds (n : Nat) (c : Half) : Half :=
  match n with
  | 0 => c
  | n + 1 => crcRounds n (crcShift c)

/-- `crc_update(c, b)` (R81): the byte enters at the top, bit 7 first. -/
def crcUpdate (c : Half) (b : Byte) : Half := crcRounds 8 (c ^^^ (b.setWidth 16 <<< 8))

/-- `crc16(seq)` (R80): initial value 0x0000, no final XOR. -/
def crc16 (bytes : List Byte) : Half := bytes.foldl crcUpdate Config.crcInit ^^^ Config.crcXorOut

/-! The response. -/

/-- `respond(s, r)` ends every command (R222): `STATUS`, `RESULT` (0 with an error), the sticky bit of `ERRLOG`, and
`rsp_valid` with the response (30_encoding.md R67). -/
def respond (st : Status) (r : Word) (s : State) : State :=
  { s with
    status := st
    result := if st.isError then 0 else r
    errlog := s.errlog ||| errlogBit st
    rspValid := true }

/-- `raise E` is `respond(E, 0)` with every other register unchanged (R13). This is all that taking an error is: no
state is saved and no control transfer happens (R227, R228). -/
def raise (e : Status) (s : State) : State := respond e 0 s

/-- An undecodable word (30_encoding.md R64): `ERR_ILLEGAL`, and nothing else changes (R223). -/
def answerIllegal (s : State) : Answer := .next (raise .errIllegal s)

/-! The staging and option registers. -/

/-- `ILEN <- 0; ICRC <- 0x0000`; `IBUF` keeps its bytes (R100). -/
def clearStaging (s : State) : State := { s with ilen := 0, icrc := Config.crcInit }

/-- One byte pushed (R101): stored while `ILEN < 22`, entered in `ICRC`, counted up to 0xFFFF. -/
def pushByte (b : Byte) (s : State) : State :=
  { s with
    ibuf := if h : s.ilen.toNat < 22 then s.ibuf.set s.ilen.toNat b else s.ibuf
    icrc := crcUpdate s.icrc b
    ilen := if s.ilen = Config.ilenMax then Config.ilenMax else s.ilen + 1 }

/-- All `OPT_*` registers cleared (R180). -/
def clearOptions (s : State) : State :=
  { s with optPresent := 0, optDur := 0, optSched := 0, optAkw := false, optTaste := 0 }

/-- `parse_verdict(ILEN, ICRC)` (R102): the first check that fails decides. -/
def parseVerdict (n r : Half) : Status :=
  if n.toNat < Config.minParseLen then .errFormat
  else if r ≠ 0 then .errIntegrity
  else if n.toNat ≠ Config.frameLen then .errLength
  else .ok

/-- A profile committed: `F` and `VALID` (R104, R186). -/
def commitFrame (f : Frame) (s : State) : State := { s with f := f, valid := true }

/-! The two shapes of a frame command. -/

/-- A read of the frame (R126, R145): `ERR_NOPROFILE` unless `VALID = 1`; the value computed from `F`. -/
def readFrame (value : Frame → Word) (s : State) : Answer :=
  if s.valid then .next (respond .ok (value s.f) s) else .next (raise .errNoProfile s)

/-- Steps 3 to 6 of a mutator (R151): a status, and the frame as the mutator leaves it. -/
abbrev Body := Frame → Status × Frame

/-- The capability gate of a mutator (R151 step 4): `IGNORED` and no write unless the predicate holds. -/
def gated (can : Frame → Bool) (body : Body) : Body := fun f =>
  if can f then body f else (.ignored, f)

/-- A mutator command (R151): `ERR_NOPROFILE` unless `VALID = 1`; then its body, which writes only `F`. -/
def mutate (body : Body) (s : State) : Answer :=
  if s.valid then .next (respond (body s.f).1 0 { s with f := (body s.f).2 })
  else .next (raise .errNoProfile s)

end Sys2Proof.Machine
end

