-- ==== Sys2Proof/Machine/Mutate.lean ====
section
/-! DEFINITION. The six mutators (43_mutate.md R151 to R160). Each body is steps 3 to 6 of R151; construction applies
the same bodies (44_construct.md R185). -/

namespace Sys2Proof.Machine

/-- The body of `SET_DURATION` (R152): the gate, the clamp, the split, the range check of R155, the write. -/
def bodySetDuration (n : Word) : Body := gated canSetDuration fun f =>
  let hAndM := split60 (clamp n.toNat (minTime f) (maxTime f))
  if hAndM.1 > 255 then (.errRange, f) else (.ok, packDuration hAndM.1 hAndM.2 f)

/-- The body of `SET_SCHEDULE` (R156): the gate, the split, the range check of R155, the write. -/
def bodySetSchedule (n : Word) : Body := gated canSchedule fun f =>
  let hAndM := split60 n.toNat
  if hAndM.1 > 127 then (.errRange, f) else (.ok, packSchedule hAndM.1 hAndM.2 f)

/-- The body of `SET_SCHED_EN` (R157): no gate. -/
def bodySetSchedEn (v : Bool) : Body := fun f => (.ok, packSchedEn v f)

/-- The body of `SET_AKW` (R158). -/
def bodySetAkw (v : Bool) : Body := gated canAkw fun f => (.ok, packAkw v f)

/-- The value `SET_RICE_ID` stores (R159): "wraps to 0 if id exceeds 0xFFFF". -/
def wrapRiceId (n : Word) : Half := if n.toNat > Config.riceIdMax then 0 else n.extractLsb' 0 16

/-- The body of `SET_RICE_ID` (R159). -/
def bodySetRiceId (n : Word) : Body := gated canChooseRice fun f => (.ok, packRiceId (wrapRiceId n) f)

/-- The body of `SET_TASTE` (R160): validation comes before the gate. -/
def bodySetTaste (n : Word) : Body := fun f =>
  if n.toNat > Config.tasteMax then (.errValidation, f)
  else gated canTaste (fun g => (.ok, packTaste n g)) f

/-- `SET_DURATION n` (R152). -/
def execSetDuration (n : Word) (s : State) : Answer := mutate (bodySetDuration n) s

/-- `SET_SCHEDULE n` (R156). -/
def execSetSchedule (n : Word) (s : State) : Answer := mutate (bodySetSchedule n) s

/-- `SET_SCHED_EN v` (R157). -/
def execSetSchedEn (v : Bool) (s : State) : Answer := mutate (bodySetSchedEn v) s

/-- `SET_AKW v` (R158). -/
def execSetAkw (v : Bool) (s : State) : Answer := mutate (bodySetAkw v) s

/-- `SET_RICE_ID n` (R159). -/
def execSetRiceId (n : Word) (s : State) : Answer := mutate (bodySetRiceId n) s

/-- `SET_TASTE n` (R160). -/
def execSetTaste (n : Word) (s : State) : Answer := mutate (bodySetTaste n) s

end Sys2Proof.Machine
end

