-- ==== Sys2Proof/Machine/Construct.lean ====
section
/-! DEFINITION. Construction with options (44_construct.md R180 to R186). -/

namespace Sys2Proof.Machine

/-- `OPT_CLEAR` (R180). -/
def execOptClear (s : State) : Answer := .next (respond .ok 0 (clearOptions s))

/-- `OPT_DURATION n` (R181). -/
def execOptDuration (n : Word) (s : State) : Answer :=
  .next (respond .ok 0 { s with optDur := n, optPresent := s.optPresent ||| 0b0001 })

/-- `OPT_SCHEDULE n` (R182). -/
def execOptSchedule (n : Word) (s : State) : Answer :=
  .next (respond .ok 0 { s with optSched := n, optPresent := s.optPresent ||| 0b0010 })

/-- `OPT_AKW v` (R183). -/
def execOptAkw (v : Bool) (s : State) : Answer :=
  .next (respond .ok 0 { s with optAkw := v, optPresent := s.optPresent ||| 0b0100 })

/-- `OPT_TASTE n` (R184). The index is not validated here. -/
def execOptTaste (n : Word) (s : State) : Answer :=
  .next (respond .ok 0 { s with optTaste := n, optPresent := s.optPresent ||| 0b1000 })

/-- The option snapshot `o` of R185 and R186. -/
structure Options where
  present : BitVec 4
  dur : Word
  sched : Word
  akw : Bool
  taste : Word
  deriving DecidableEq, Repr

/-- The snapshot `LOAD_OPT` takes (R186). -/
def stagedOptions (s : State) : Options :=
  ⟨s.optPresent, s.optDur, s.optSched, s.optAkw, s.optTaste⟩

/-- A frame under construction and the applied mask so far (R185). -/
abbrev Built := Frame × BitVec 4

/-- One step of `construct` (R185): skipped unless its condition holds; an error ends the construction; `OK` sets the
step's bit of the applied mask; `IGNORED` does not. -/
def optionStep (wanted : Bool) (bit : BitVec 4) (body : Body) (b : Built) : Except Status Built :=
  if wanted then
    if (body b.1).1.isError then .error (body b.1).1
    else .ok ((body b.1).2, if (body b.1).1 = .ok then b.2 ||| bit else b.2)
  else .ok b

/-- Whether the schedule step runs (R185): provided, strictly greater than the duration then stored in the frame, and
at most 1440 minutes. -/
def scheduleWanted (o : Options) (g : Frame) : Bool :=
  o.present.getLsbD 1 && decide (o.sched.toNat > duration g) && decide (o.sched.toNat ≤ Config.schedCeiling)

/-- `construct(G, o)` (R185): duration, schedule, auto-keep-warm, taste, in that order. -/
def construct (g : Frame) (o : Options) : Except Status Built :=
  (optionStep (o.present.getLsbD 0) 0b0001 (bodySetDuration o.dur) (g, 0)).bind fun b =>
  (optionStep (scheduleWanted o b.1) 0b0010 (bodySetSchedule o.sched) b).bind fun b =>
  (optionStep (o.present.getLsbD 2) 0b0100 (bodySetAkw o.akw) b).bind fun b =>
  optionStep (o.present.getLsbD 3) 0b1000 (bodySetTaste o.taste) b

/-- `LOAD_OPT` (R186): the staging state and the options are cleared whatever the outcome; `F` and `VALID` change only
when the parse and the construction both succeed. -/
def execLoadOpt (s : State) : Answer :=
  let cleared := clearOptions (clearStaging s)
  if parseVerdict s.ilen s.icrc = .ok then
    match construct s.ibuf (stagedOptions s) with
    | .ok b => .next (respond .ok (b.2.setWidth 32) (commitFrame b.1 cleared))
    | .error e => .next (respond e 0 cleared)
  else .next (respond (parseVerdict s.ilen s.icrc) 0 cleared)

end Sys2Proof.Machine
end

