-- ==== Sys2Proof/Machine/Crc.lean ====
section
/-! DEFINITION. The Checksum Engine's commands (40_crc.md R82 to R85). -/

namespace Sys2Proof.Machine

/-- `CRC_CLEAR` (R82). -/
def execCrcClear (s : State) : Answer := .next (respond .ok 0 { s with crc := Config.crcInit })

/-- `CRC_FEED b` (R83). -/
def execCrcFeed (b : Byte) (s : State) : Answer := .next (respond .ok 0 { s with crc := crcUpdate s.crc b })

/-- `CRC_READ` (R84). -/
def execCrcRead (s : State) : Answer := .next (respond .ok (s.crc.setWidth 32) s)

/-- `CRC_CHECK` (R85). -/
def execCrcCheck (s : State) : Answer := .next (respond .ok (flagWord (s.crc == 0)) s)

end Sys2Proof.Machine
end

