-- ==== Sys2Proof/Machine/Extract.lean ====
section
/-! DEFINITION. The bit-field extractor's commands (42_extract.md R126 to R141, R145). -/

namespace Sys2Proof.Machine

/-- `GET_FIELD.DEVTYPE` (R127). -/
def execGetDevtype (s : State) : Answer := readFrame (fun f => (deviceType f).setWidth 32) s

/-- `GET_FIELD.SUBTYPE` (R128). -/
def execGetSubtype (s : State) : Answer := readFrame (fun f => (subType f).setWidth 32) s

/-- `GET_FIELD.MENU_INDEX` (R129). -/
def execGetMenuIndex (s : State) : Answer := readFrame (fun f => (menuIndex f).setWidth 32) s

/-- `GET_FIELD.MENU_ID` (R130). -/
def execGetMenuId (s : State) : Answer := readFrame (fun f => menuId f) s

/-- `GET_FIELD.FLAGS` (R131). -/
def execGetFlags (s : State) : Answer := readFrame (fun f => (flagByte f).setWidth 32) s

/-- `GET_FIELD.DURATION` (R132). -/
def execGetDuration (s : State) : Answer := readFrame (fun f => minutesWord (duration f)) s

/-- `GET_FIELD.MAX_TIME` (R133). -/
def execGetMaxTime (s : State) : Answer := readFrame (fun f => minutesWord (maxTime f)) s

/-- `GET_FIELD.MIN_TIME` (R134). -/
def execGetMinTime (s : State) : Answer := readFrame (fun f => minutesWord (minTime f)) s

/-- `GET_FIELD.SCHEDULE` (R135). -/
def execGetSchedule (s : State) : Answer := readFrame (fun f => minutesWord (schedule f)) s

/-- `GET_FIELD.SCHED_EN` (R136). -/
def execGetSchedEn (s : State) : Answer := readFrame (fun f => flagWord (schedEn f)) s

/-- `GET_FIELD.AKW` (R137). -/
def execGetAkw (s : State) : Answer := readFrame (fun f => flagWord (autoKeepWarm f)) s

/-- `GET_FIELD.RICE_ID` (R138). -/
def execGetRiceId (s : State) : Answer := readFrame (fun f => (riceId f).setWidth 32) s

/-- `GET_FIELD.TASTE` (R139). -/
def execGetTaste (s : State) : Answer := readFrame (fun f => (taste f).setWidth 32) s

/-- `GET_FIELD.CAPS` (R140). -/
def execGetCaps (s : State) : Answer := readFrame (fun f => caps f) s

/-- `GET_FIELD.TRAILER` (R141). -/
def execGetTrailer (s : State) : Answer := readFrame (fun f => (trailer f).setWidth 32) s

/-- `READ_BYTE k` (R145). An offset above 21 comes from no word the decoder accepts; the rule's answer for it,
`ERR_ILLEGAL`, is given here too (log entry 10). -/
def execReadByte (k : BitVec 5) (s : State) : Answer :=
  if h : k.toNat < 22 then readFrame (fun f => f[k.toNat].setWidth 32) s else answerIllegal s

end Sys2Proof.Machine
end

