-- ==== Sys2Proof/Machine/Load.lean ====
section
/-! DEFINITION. Frame input and parse (41_load.md R100 to R104). -/

namespace Sys2Proof.Machine

/-- `IN_CLEAR` (R100). -/
def execInClear (s : State) : Answer := .next (respond .ok 0 (clearStaging s))

/-- `IN_BYTE b` (R101). -/
def execInByte (b : Byte) (s : State) : Answer := .next (respond .ok 0 (pushByte b s))

/-- `LOAD` (R104): the staging state is cleared whatever the verdict; `F` and `VALID` change only when it is `OK`. -/
def execLoad (s : State) : Answer :=
  if parseVerdict s.ilen s.icrc = .ok then .next (respond .ok 0 (commitFrame s.ibuf (clearStaging s)))
  else .next (respond (parseVerdict s.ilen s.icrc) 0 (clearStaging s))

end Sys2Proof.Machine
end

