-- ==== Sys2Proof/Machine/Serialize.lean ====
section
/-! DEFINITION. `SERIALIZE` and `NOP` (45_serialize.md R200, R202). -/

namespace Sys2Proof.Machine

/-- `SERIALIZE` (R200): the trailer is recomputed over the payload on a private datapath; `CRC` and `ICRC` are untouched. -/
def execSerialize (s : State) : Answer :=
  if s.valid then
    .next (respond .ok ((crc16 (payload s.f)).setWidth 32) { s with f := packTrailer (crc16 (payload s.f)) s.f })
  else .next (raise .errNoProfile s)

/-- `NOP` (R202). -/
def execNop (s : State) : Answer := .next (respond .ok 0 s)

end Sys2Proof.Machine
end

