-- ==== Sys2Proof/Machine/Dispatch.lean ====
section
/-! DEFINITION. One arm per command (30_encoding.md R63). -/

namespace Sys2Proof.Machine

def exec (i : Instr) (s : State) : Host.Outcome State Fault Refusal :=
  match i with
  | .nop => Sys2Proof.Machine.execNop s
  | .crcClear => Sys2Proof.Machine.execCrcClear s
  | .crcFeed b => Sys2Proof.Machine.execCrcFeed b s
  | .crcRead => Sys2Proof.Machine.execCrcRead s
  | .crcCheck => Sys2Proof.Machine.execCrcCheck s
  | .inClear => Sys2Proof.Machine.execInClear s
  | .inByte b => Sys2Proof.Machine.execInByte b s
  | .load => Sys2Proof.Machine.execLoad s
  | .getDevtype => Sys2Proof.Machine.execGetDevtype s
  | .getSubtype => Sys2Proof.Machine.execGetSubtype s
  | .getMenuIndex => Sys2Proof.Machine.execGetMenuIndex s
  | .getMenuId => Sys2Proof.Machine.execGetMenuId s
  | .getFlags => Sys2Proof.Machine.execGetFlags s
  | .getDuration => Sys2Proof.Machine.execGetDuration s
  | .getMaxTime => Sys2Proof.Machine.execGetMaxTime s
  | .getMinTime => Sys2Proof.Machine.execGetMinTime s
  | .getSchedule => Sys2Proof.Machine.execGetSchedule s
  | .getSchedEn => Sys2Proof.Machine.execGetSchedEn s
  | .getAkw => Sys2Proof.Machine.execGetAkw s
  | .getRiceId => Sys2Proof.Machine.execGetRiceId s
  | .getTaste => Sys2Proof.Machine.execGetTaste s
  | .getCaps => Sys2Proof.Machine.execGetCaps s
  | .getTrailer => Sys2Proof.Machine.execGetTrailer s
  | .readByte k => Sys2Proof.Machine.execReadByte k s
  | .setDuration n => Sys2Proof.Machine.execSetDuration n s
  | .setSchedule n => Sys2Proof.Machine.execSetSchedule n s
  | .setSchedEn v => Sys2Proof.Machine.execSetSchedEn v s
  | .setAkw v => Sys2Proof.Machine.execSetAkw v s
  | .setRiceId n => Sys2Proof.Machine.execSetRiceId n s
  | .setTaste n => Sys2Proof.Machine.execSetTaste n s
  | .optClear => Sys2Proof.Machine.execOptClear s
  | .optDuration n => Sys2Proof.Machine.execOptDuration n s
  | .optSchedule n => Sys2Proof.Machine.execOptSchedule n s
  | .optAkw v => Sys2Proof.Machine.execOptAkw v s
  | .optTaste n => Sys2Proof.Machine.execOptTaste n s
  | .loadOpt => Sys2Proof.Machine.execLoadOpt s
  | .serialize => Sys2Proof.Machine.execSerialize s

end Sys2Proof.Machine
end

