-- ==== Sys2Proof/Machine/Accept.lean ====
section
/-! DEFINITION. Taking what the host does next (30_encoding.md R60, R64, R65; 70_reset_and_hazards.md R240, R242). -/

namespace Sys2Proof.Machine

/-- One command word, executed atomically (20_memory.md R50): decoded first (R65), then run; an illegal word is
answered with `ERR_ILLEGAL` (R64). -/
def answerWord (w : CmdWord) (s : State) : Answer :=
  match decode w with
  | .ok i => exec i s
  | .error _ => answerIllegal s

/-- `rst_n = 0` at a clock edge: every register takes its reset value (R240). What the host has still to do is the
host's and stays. -/
def hostReset (s : State) : State := { State.reset with pending := s.pending }

/-- One action of the host. -/
def takeAction (a : HostAction) (s : State) : Answer :=
  match a with
  | .command w => answerWord w s
  | .reset => .next (hostReset s)

/-- The next action of the host leaves the list and is taken; with none, the block waits (R242). -/
def takeNext (s : State) : Answer :=
  match s.pending with
  | [] => .next s
  | a :: rest => takeAction a { s with pending := rest }

/-- The host does `a` next. -/
def offer (a : HostAction) (s : State) : State := { s with pending := a :: s.pending }

end Sys2Proof.Machine
end

