-- ==== Sys2Proof/Machine/Step.lean ====
section
/-! DEFINITION. The transaction-level step: one accepted command, no time (30_encoding.md R67: "A model at transaction
level takes one step per accepted command and has no time"). -/

namespace Sys2Proof.Machine

/-- One step of the block. -/
def step (s : State) : Host.Outcome State Fault Refusal := takeNext s

/-- The state in which the host offers the given word of spec/opcode_table.json next, so that the next step runs it
(log entries 1 and 9). -/
def State.withFetchWord (s : State) (nbits w : Nat) : State := offer (.command (tableWord nbits w)) s

end Sys2Proof.Machine
end

