-- ==== Sys2Proof/Machine/Assembler.lean ====
section
/-! DEFINITION. The assembler text (30_encoding.md R69). A line is a list of characters. Points R69 leaves to the reader
(blanks, letter case of hex digits, empty lines) are log entry 11; pseudo-instructions as lines are log entry 16. -/

namespace Sys2Proof.Machine

/-- Why a line is refused. -/
inductive AsmError where
  | unknownMnemonic
  | missingOperand
  | extraOperand
  | badOperand
  deriving DecidableEq, Repr

/-- What a mnemonic takes: the operand forms of R62. `GET_FIELD` is written with its suffix and no operand. -/
inductive AsmForm where
  | noOperand (i : Instr)
  | byte (mk : Byte → Instr)
  | bool (mk : Bool → Instr)
  | u32 (mk : Word → Instr)
  | offset (mk : BitVec 5 → Instr)

/-- The mnemonics of R63. -/
def asmTable : List (String × AsmForm) :=
  [("NOP", .noOperand .nop), ("CRC_CLEAR", .noOperand .crcClear), ("CRC_FEED", .byte .crcFeed),
    ("CRC_READ", .noOperand .crcRead), ("CRC_CHECK", .noOperand .crcCheck)] ++
  [("IN_CLEAR", .noOperand .inClear), ("IN_BYTE", .byte .inByte), ("LOAD", .noOperand .load)] ++
  [("GET_FIELD.DEVTYPE", .noOperand .getDevtype), ("GET_FIELD.SUBTYPE", .noOperand .getSubtype),
    ("GET_FIELD.MENU_INDEX", .noOperand .getMenuIndex), ("GET_FIELD.MENU_ID", .noOperand .getMenuId),
    ("GET_FIELD.FLAGS", .noOperand .getFlags), ("GET_FIELD.DURATION", .noOperand .getDuration),
    ("GET_FIELD.MAX_TIME", .noOperand .getMaxTime), ("GET_FIELD.MIN_TIME", .noOperand .getMinTime)] ++
  [("GET_FIELD.SCHEDULE", .noOperand .getSchedule), ("GET_FIELD.SCHED_EN", .noOperand .getSchedEn),
    ("GET_FIELD.AKW", .noOperand .getAkw), ("GET_FIELD.RICE_ID", .noOperand .getRiceId),
    ("GET_FIELD.TASTE", .noOperand .getTaste), ("GET_FIELD.CAPS", .noOperand .getCaps),
    ("GET_FIELD.TRAILER", .noOperand .getTrailer), ("READ_BYTE", .offset .readByte)] ++
  [("SET_DURATION", .u32 .setDuration), ("SET_SCHEDULE", .u32 .setSchedule), ("SET_SCHED_EN", .bool .setSchedEn),
    ("SET_AKW", .bool .setAkw), ("SET_RICE_ID", .u32 .setRiceId), ("SET_TASTE", .u32 .setTaste)] ++
  [("OPT_CLEAR", .noOperand .optClear), ("OPT_DURATION", .u32 .optDuration), ("OPT_SCHEDULE", .u32 .optSchedule),
    ("OPT_AKW", .bool .optAkw), ("OPT_TASTE", .u32 .optTaste), ("LOAD_OPT", .noOperand .loadOpt),
    ("SERIALIZE", .noOperand .serialize)]

/-- A decimal digit's value. -/
def decimalDigit (c : Char) : Option Nat :=
  if 48 ≤ c.toNat ∧ c.toNat ≤ 57 then some (c.toNat - 48) else none

/-- A hexadecimal digit's value, in either letter case. -/
def hexDigit (c : Char) : Option Nat :=
  if 48 ≤ c.toNat ∧ c.toNat ≤ 57 then some (c.toNat - 48)
  else if 65 ≤ c.toNat ∧ c.toNat ≤ 70 then some (c.toNat - 55)
  else if 97 ≤ c.toNat ∧ c.toNat ≤ 102 then some (c.toNat - 87)
  else none

/-- Digits to a number, most significant first, after the number `acc` read so far. -/
def readDigits (base : Nat) (digit : Char → Option Nat) (acc : Nat) (cs : List Char) : Option Nat :=
  match cs with
  | [] => some acc
  | c :: rest => (digit c).bind fun d => readDigits base digit (acc * base + d) rest

/-- A decimal number or a `0x` hexadecimal number (R69). -/
def readNumber (cs : List Char) : Option Nat :=
  match cs with
  | [] => none
  | ['0', 'x'] => none
  | '0' :: 'x' :: rest => readDigits 16 hexDigit 0 rest
  | c :: rest => readDigits 10 decimalDigit 0 (c :: rest)

/-- `0`, `1`, `false` or `true` (R69). -/
def readBool (cs : List Char) : Option Bool :=
  if cs = "0".toList then some false
  else if cs = "1".toList then some true
  else if cs = "false".toList then some false
  else if cs = "true".toList then some true
  else none

/-- A number below the bound of its form. -/
def readBelow (bound : Nat) (cs : List Char) : Option Nat :=
  (readNumber cs).bind fun n => if n < bound then some n else none

/-- The operand of a form, refused outside the form's range (R69). -/
def AsmForm.assemble (form : AsmForm) (operands : List (List Char)) : Except AsmError Instr :=
  match form, operands with
  | .noOperand i, [] => .ok i
  | .noOperand _, _ :: _ => .error .extraOperand
  | .byte _, [] => .error .missingOperand
  | .bool _, [] => .error .missingOperand
  | .u32 _, [] => .error .missingOperand
  | .offset _, [] => .error .missingOperand
  | .byte mk, [cs] => ((readBelow 256 cs).map fun n => mk (BitVec.ofNat 8 n)).elim (.error .badOperand) .ok
  | .bool mk, [cs] => ((readBool cs).map mk).elim (.error .badOperand) .ok
  | .u32 mk, [cs] => ((readBelow 4294967296 cs).map fun n => mk (BitVec.ofNat 32 n)).elim (.error .badOperand) .ok
  | .offset mk, [cs] => ((readBelow 22 cs).map fun n => mk (BitVec.ofNat 5 n)).elim (.error .badOperand) .ok
  | .byte _, _ :: _ :: _ => .error .extraOperand
  | .bool _, _ :: _ :: _ => .error .extraOperand
  | .u32 _, _ :: _ :: _ => .error .extraOperand
  | .offset _, _ :: _ :: _ => .error .extraOperand

/-- A blank between words: a space or a tab. -/
def isBlank (c : Char) : Bool := c == ' ' || c == '\t'

/-- The words of a line, `word` being the letters of the word in progress, last first. -/
def wordsOf (word : List Char) (cs : List Char) : List (List Char) :=
  match cs with
  | [] => if word = [] then [] else [word.reverse]
  | c :: rest =>
    if isBlank c then (if word = [] then wordsOf [] rest else word.reverse :: wordsOf [] rest)
    else wordsOf (c :: word) rest

/-- `;` starts a comment that runs to the end of the line (R69). -/
def withoutComment (cs : List Char) : List Char := cs.takeWhile fun c => c != ';'

/-- The command of a line; none for a line with no command on it. A line takes the mnemonics of R63 only: that the name
of a pseudo-instruction (R70) is refused as no mnemonic is the model's choice (DESIGN CHOICE, log entry 16). -/
def readLine (cs : List Char) : Except AsmError (Option Instr) :=
  match wordsOf [] (withoutComment cs) with
  | [] => .ok none
  | mnemonic :: operands =>
    match asmTable.find? fun row => row.1.toList == mnemonic with
    | none => .error .unknownMnemonic
    | some row => (row.2.assemble operands).map some

/-- The assembler on one line (R69): `(OPCODE << 32) | ARG`, or a refusal. -/
def assembleLine (cs : List Char) : Except AsmError (Option CmdWord) :=
  (readLine cs).map fun i => i.map encode

/-- The mnemonic of a command (R63). -/
def mnemonicOf (i : Instr) : String :=
  match i with
  | .nop => "NOP"
  | .crcClear => "CRC_CLEAR"
  | .crcFeed _ => "CRC_FEED"
  | .crcRead => "CRC_READ"
  | .crcCheck => "CRC_CHECK"
  | .inClear => "IN_CLEAR"
  | .inByte _ => "IN_BYTE"
  | .load => "LOAD"
  | .getDevtype => "GET_FIELD.DEVTYPE"
  | .getSubtype => "GET_FIELD.SUBTYPE"
  | .getMenuIndex => "GET_FIELD.MENU_INDEX"
  | .getMenuId => "GET_FIELD.MENU_ID"
  | .getFlags => "GET_FIELD.FLAGS"
  | .getDuration => "GET_FIELD.DURATION"
  | .getMaxTime => "GET_FIELD.MAX_TIME"
  | .getMinTime => "GET_FIELD.MIN_TIME"
  | .getSchedule => "GET_FIELD.SCHEDULE"
  | .getSchedEn => "GET_FIELD.SCHED_EN"
  | .getAkw => "GET_FIELD.AKW"
  | .getRiceId => "GET_FIELD.RICE_ID"
  | .getTaste => "GET_FIELD.TASTE"
  | .getCaps => "GET_FIELD.CAPS"
  | .getTrailer => "GET_FIELD.TRAILER"
  | .readByte _ => "READ_BYTE"
  | .setDuration _ => "SET_DURATION"
  | .setSchedule _ => "SET_SCHEDULE"
  | .setSchedEn _ => "SET_SCHED_EN"
  | .setAkw _ => "SET_AKW"
  | .setRiceId _ => "SET_RICE_ID"
  | .setTaste _ => "SET_TASTE"
  | .optClear => "OPT_CLEAR"
  | .optDuration _ => "OPT_DURATION"
  | .optSchedule _ => "OPT_SCHEDULE"
  | .optAkw _ => "OPT_AKW"
  | .optTaste _ => "OPT_TASTE"
  | .loadOpt => "LOAD_OPT"
  | .serialize => "SERIALIZE"

/-- The last `n` hexadecimal digits of a number, most significant first. -/
def hexDigits (n x : Nat) : List Char :=
  match n with
  | 0 => []
  | n + 1 => hexDigits n (x / 16) ++ ["0123456789ABCDEF".toList.getD (x % 16) '0']

/-- A number as the text of an operand. -/
def hexText (digits x : Nat) : List Char := ' ' :: '0' :: 'x' :: hexDigits digits x

/-- The operand of a command as text, nothing for a command without one. -/
def operandText (i : Instr) : List Char :=
  match i with
  | .nop => []
  | .crcClear => []
  | .crcFeed b => hexText 2 b.toNat
  | .crcRead => []
  | .crcCheck => []
  | .inClear => []
  | .inByte b => hexText 2 b.toNat
  | .load => []
  | .getDevtype => []
  | .getSubtype => []
  | .getMenuIndex => []
  | .getMenuId => []
  | .getFlags => []
  | .getDuration => []
  | .getMaxTime => []
  | .getMinTime => []
  | .getSchedule => []
  | .getSchedEn => []
  | .getAkw => []
  | .getRiceId => []
  | .getTaste => []
  | .getCaps => []
  | .getTrailer => []
  | .readByte k => hexText 2 k.toNat
  | .setDuration n => hexText 8 n.toNat
  | .setSchedule n => hexText 8 n.toNat
  | .setSchedEn v => if v then [' ', '1'] else [' ', '0']
  | .setAkw v => if v then [' ', '1'] else [' ', '0']
  | .setRiceId n => hexText 8 n.toNat
  | .setTaste n => hexText 8 n.toNat
  | .optClear => []
  | .optDuration n => hexText 8 n.toNat
  | .optSchedule n => hexText 8 n.toNat
  | .optAkw v => if v then [' ', '1'] else [' ', '0']
  | .optTaste n => hexText 8 n.toNat
  | .loadOpt => []
  | .serialize => []

/-- A command written as one line of assembler text (R69). -/
def lineOf (i : Instr) : List Char := (mnemonicOf i).toList ++ operandText i

end Sys2Proof.Machine
end

