-- ==== Sys2Proof/Machine/Clocked.lean ====
section
/-! DEFINITION. The block clock edge by clock edge: the ports (30_encoding.md R66), the transaction protocol (R67) and
the synchronous reset (70_reset_and_hazards.md R240). `CMD_LATENCY` (00_scope.md R9) is the argument `latency`. -/

namespace Sys2Proof.Machine

/-- The input ports at a rising edge of `clk` (R66). -/
structure PortInputs where
  rstN : Bool
  cmdValid : Bool
  cmdWord : CmdWord
  deriving DecidableEq, Repr

/-- The output ports (R66). -/
structure Outputs where
  cmdReady : Bool
  rspValid : Bool
  rspStatus : BitVec 4
  rspResult : Word
  errlog : Half
  deriving DecidableEq, Repr

/-- A command accepted and not yet completed: its word, and the edges left until it completes (log entry 5). -/
structure InFlight where
  word : CmdWord
  left : Nat
  deriving DecidableEq, Repr

/-- The block between two clock edges. There is never more than one command in flight (R67). -/
structure Clocked where
  regs : State
  inFlight : Option InFlight
  cmdReady : Bool
  deriving DecidableEq, Repr

/-- What the output ports show while the input `rst_n` is `rstN` (R66; log entry 6). -/
def outputs (rstN : Bool) (c : Clocked) : Outputs where
  cmdReady := rstN && c.cmdReady
  rspValid := rstN && c.regs.rspValid
  rspStatus := c.regs.status.code
  rspResult := c.regs.result
  errlog := c.regs.errlog

/-- An edge with `rst_n = 0` (R240): every register at its reset value, and a command in flight abandoned. -/
def resetEdge (c : Clocked) : Clocked := ⟨hostReset c.regs, none, false⟩

/-- A command is accepted (R67): `cmd_ready` and `rsp_valid` are 0 until it completes. -/
def acceptEdge (latency : Nat) (w : CmdWord) (c : Clocked) : Clocked :=
  ⟨{ c.regs with rspValid := false }, some ⟨w, latency⟩, false⟩

/-- A command completes (R67): its writes take effect, `rsp_valid` and `cmd_ready` become 1. -/
def completeEdge (w : CmdWord) (c : Clocked) : Host.Outcome Clocked Fault Refusal :=
  match answerWord w c.regs with
  | .next s => .next ⟨s, none, true⟩
  | .fault r => .fault r
  | .refused r => .refused r

/-- One rising edge of `clk`. -/
def clockEdge (latency : Nat) (p : PortInputs) (c : Clocked) : Host.Outcome Clocked Fault Refusal :=
  if p.rstN then
    match c.inFlight with
    | some fl =>
      if fl.left ≤ 1 then completeEdge fl.word c
      else .next { c with inFlight := some ⟨fl.word, fl.left - 1⟩ }
    | none =>
      if c.cmdReady then
        if p.cmdValid then .next (acceptEdge latency p.cmdWord c) else .next c
      else .next { c with cmdReady := true }
  else .next (resetEdge c)

/-- A sequence of edges. -/
def clockEdges (latency : Nat) (ps : List PortInputs) (c : Clocked) : Host.Outcome Clocked Fault Refusal :=
  match ps with
  | [] => .next c
  | p :: rest =>
    match clockEdge latency p c with
    | .next d => clockEdges latency rest d
    | .fault r => .fault r
    | .refused r => .refused r

end Sys2Proof.Machine
end

