-- ==== Sys2Proof/Machine/Run.lean ====
section
/-! DEFINITION. Runs: a list of commands from a state, and what the host observes of it (20_memory.md R51,
70_reset_and_hazards.md R252). -/

namespace Sys2Proof.Machine

/-- Go on from the state an answer gives. -/
def andThen (a : Answer) (k : State → Answer) : Answer :=
  match a with
  | .next s => k s
  | .fault r => .fault r
  | .refused r => .refused r

/-- Commands in order, each from the state the one before it left (R51). -/
def execAll (is : List Instr) (s : State) : Answer :=
  match is with
  | [] => .next s
  | i :: rest => andThen (exec i s) (execAll rest)

/-- Command words in order (R51: "the left fold of each command's step"). -/
def answerWords (ws : List CmdWord) (s : State) : Answer :=
  match ws with
  | [] => .next s
  | w :: rest => andThen (answerWord w s) (answerWords rest)

/-- The response to a command: `STATUS` and `RESULT` (10_state.md R29, R30). -/
structure Response where
  status : Status
  result : Word
  deriving DecidableEq, Repr

/-- The response the port shows (30_encoding.md R66). -/
def responseOf (s : State) : Response := ⟨s.status, s.result⟩

/-- What the host observes of a list of command words (R252): the final state and the responses, one per command. -/
def observe (ws : List CmdWord) (s : State) : Option (State × List Response) :=
  match ws with
  | [] => some (s, [])
  | w :: rest =>
    match answerWord w s with
    | .next t => (observe rest t).map fun o => (o.1, responseOf t :: o.2)
    | .fault _ => none
    | .refused _ => none

/-- A run of R252: from the reset state. -/
def runFromReset (ws : List CmdWord) : Option (State × List Response) := observe ws State.reset

end Sys2Proof.Machine
end

