-- ==== Sys2Proof/Machine/Pseudo.lean ====
section
/-! DEFINITION. The pseudo-instructions (30_encoding.md R70). The block does not know them: each is an ordinary command
sequence. -/

namespace Sys2Proof.Machine

/-- A pseudo-instruction with its operands (R70). -/
inductive Pseudo where
  /-- `CHECKSUM b1, ..., bn`. -/
  | checksum (bytes : List Byte)
  /-- `VERIFY b1, ..., bn`. -/
  | verify (bytes : List Byte)
  /-- `PARSE b1, ..., bn`. -/
  | parse (bytes : List Byte)
  /-- `CONSTRUCT b1, ..., bn [, dur=d] [, sched=s] [, akw=a] [, taste=t]`. -/
  | construct (bytes : List Byte) (dur sched : Option Word) (akw : Option Bool) (taste : Option Word)
  /-- `EMIT`. -/
  | emit
  deriving DecidableEq, Repr

/-- The frame offsets in order, as operands of `READ_BYTE`. -/
def allOffsets : List (BitVec 5) := (List.range 22).map (BitVec.ofNat 5)

/-- The commands a pseudo-instruction stands for, in order (R70). It takes the term; its text is no line of the assembler
(DESIGN CHOICE, log entry 16). -/
def Pseudo.expand (p : Pseudo) : List Instr :=
  match p with
  | .checksum bytes => [.crcClear] ++ bytes.map .crcFeed ++ [.crcRead]
  | .verify bytes => [.crcClear] ++ bytes.map .crcFeed ++ [.crcCheck]
  | .parse bytes => [.inClear] ++ bytes.map .inByte ++ [.load]
  | .construct bytes dur sched akw taste =>
    [.optClear] ++ (dur.map Instr.optDuration).toList ++ (sched.map Instr.optSchedule).toList
      ++ (akw.map Instr.optAkw).toList ++ (taste.map Instr.optTaste).toList
      ++ [.inClear] ++ bytes.map .inByte ++ [.loadOpt]
  | .emit => [.serialize] ++ allOffsets.map .readByte

end Sys2Proof.Machine
end

