-- ==== Sys2Proof/Safety.lean ====
section
/-! DEFINITION. The terms claims are stated in: the invariant of the transaction-level state and of the clock-edge
state, runs without a recorded error, and the plain readings of the spec's prose (polynomial division, illegal words)
that statements compare the model with. -/

namespace Sys2Proof.Machine

/-- No error has been recorded since reset: the premise a claim about a run takes (93_implementation_defined.md:
"a claim about a run takes `ERRLOG = 0` as a premise"). -/
abbrev State.clean (s : State) : Prop := s.errlog = 0

/-! The invariant of the transaction-level state. -/

/-- Bits 0, 1 and 9 to 15 of `ERRLOG` read as 0 (10_state.md R32). -/
abbrev State.errlogReserved (s : State) : Prop := s.errlog &&& 0xFE03#16 = 0

/-- An error shown on the response port has `RESULT = 0` and its sticky bit set (60_exceptions.md R222). -/
abbrev State.errorRecorded (s : State) : Prop :=
  s.status.isError = true → s.result = 0 ∧ s.errlog.getLsbD s.status.code.toNat = true

/-- While `VALID = 0` the frame register still holds its reset bytes (10_state.md R22, R35). -/
abbrev State.noProfileNoFrame (s : State) : Prop := s.valid = false → s.f = State.reset.f

/-- While no byte has been lost, `ICRC` is the CRC of the bytes `IBUF` keeps (10_state.md R24 to R26). -/
abbrev State.stagingConsistent (s : State) : Prop :=
  s.ilen.toNat ≤ Config.frameLen → s.icrc = crc16 (s.ibuf.toList.take s.ilen.toNat)

/-- An option register that is not provided holds 0 (10_state.md R28, R35; 44_construct.md R180, R186). -/
abbrev State.absentOptionsZero (s : State) : Prop :=
  (s.optPresent.getLsbD 0 = false → s.optDur = 0) ∧ (s.optPresent.getLsbD 1 = false → s.optSched = 0) ∧
  (s.optPresent.getLsbD 2 = false → s.optAkw = false) ∧ (s.optPresent.getLsbD 3 = false → s.optTaste = 0)

/-- Until the first response after reset, every register is at its reset value (30_encoding.md R67). -/
abbrev State.unansweredIsReset (s : State) : Prop :=
  s.rspValid = false → s = { State.reset with pending := s.pending }

/-- The invariant every step keeps. -/
structure State.Inv (s : State) : Prop where
  errlogReserved : s.errlogReserved
  errorRecorded : s.errorRecorded
  noProfileNoFrame : s.noProfileNoFrame
  stagingConsistent : s.stagingConsistent
  absentOptionsZero : s.absentOptionsZero
  unansweredIsReset : s.unansweredIsReset

/-! The invariant of the clock-edge state (30_encoding.md R67). -/

/-- `cmd_ready` and a command in flight exclude each other; a command in flight has no response showing and at least one
edge left; a block that is neither ready nor busy has just been reset. -/
structure Clocked.Inv (c : Clocked) : Prop where
  readyNotBusy : c.cmdReady = true → c.inFlight = none
  busyNoResponse : ∀ fl, c.inFlight = some fl → c.regs.rspValid = false ∧ 1 ≤ fl.left
  idleIsReset : c.cmdReady = false → c.inFlight = none → c.regs = { State.reset with pending := c.regs.pending }

/-! Plain readings of the spec's prose. -/

/-- The illegal words of 30_encoding.md R64, (a) then (b), read off its ranges. -/
abbrev illegalWord (opcode arg : Nat) : Prop :=
  (0x05 ≤ opcode ∧ opcode ≤ 0x0F) ∨ (0x13 ≤ opcode ∧ opcode ≤ 0x1F) ∨ (0x22 ≤ opcode ∧ opcode ≤ 0x2F) ∨
  (0x36 ≤ opcode ∧ opcode ≤ 0x3F) ∨ (0x46 ≤ opcode ∧ opcode ≤ 0x4F) ∨ (0x51 ≤ opcode ∧ opcode ≤ 0xFF) ∨
  (opcode ∈ [0x00, 0x01, 0x03, 0x04, 0x10, 0x12, 0x40, 0x45, 0x50] ∧ arg ≠ 0) ∨
  (opcode ∈ [0x02, 0x11] ∧ arg ≥ 2 ^ 8) ∨
  (opcode ∈ [0x32, 0x33, 0x43] ∧ arg ≥ 2 ^ 1) ∨
  (opcode = 0x20 ∧ arg > 14) ∨
  (opcode = 0x21 ∧ arg > 21)

/-- The product over GF(2) of the polynomial with coefficients `bits`, highest power first, and the polynomial `g`, a
number whose bit `i` is the coefficient of `x^i`. -/
def polyTimes (bits : List Bool) (g : Nat) : Nat :=
  bits.foldl (fun acc b => (acc <<< 1) ^^^ (if b then g else 0)) 0

/-- A message read as a polynomial, the first bit of the first byte at the highest power (40_crc.md R80). -/
def messagePoly (bytes : List Byte) : Nat := bytes.foldl (fun acc b => acc * 256 + b.toNat) 0

/-- A byte sequence with bit `j` of byte `i` flipped (40_crc.md R88). -/
def flipBit (bytes : List Byte) (i j : Nat) : List Byte := bytes.modify i fun b => b ^^^ (1#8 <<< j)

/-- The bytes of a big-endian 16-bit value: `[t[15:8], t[7:0]]` (40_crc.md R86). -/
def trailerBytes (t : Half) : List Byte := [t.extractLsb' 8 8, t.extractLsb' 0 8]

/-- The statuses each command can report (60_exceptions.md R225). `ERR_ILLEGAL` is reported for words that are no
command, and for the one form a term can break, an offset above 21. -/
def possibleStatuses (i : Instr) : List Status :=
  match i with
  | .nop | .crcClear | .crcFeed _ | .crcRead | .crcCheck | .inClear | .inByte _ | .optClear | .optAkw _ => [.ok]
  | .optDuration _ | .optSchedule _ | .optTaste _ => [.ok]
  | .load => [.ok, .errFormat, .errIntegrity, .errLength]
  | .loadOpt => [.ok, .errFormat, .errIntegrity, .errLength, .errRange, .errValidation]
  | .getDevtype | .getSubtype | .getMenuIndex | .getMenuId | .getFlags | .getDuration | .getMaxTime | .getMinTime
  | .getSchedule | .getSchedEn | .getAkw | .getRiceId | .getTaste | .getCaps | .getTrailer => [.ok, .errNoProfile]
  | .readByte k => if k.toNat ≤ Config.offsetMax then [.ok, .errNoProfile] else [.errIllegal]
  | .serialize => [.ok, .errNoProfile]
  | .setDuration _ | .setSchedule _ => [.ok, .ignored, .errNoProfile, .errRange]
  | .setSchedEn _ => [.ok, .errNoProfile]
  | .setAkw _ | .setRiceId _ => [.ok, .ignored, .errNoProfile]
  | .setTaste _ => [.ok, .ignored, .errNoProfile, .errValidation]

/-- The frame offsets each command may write (10_state.md R36). -/
def writtenOffsets (i : Instr) : List Nat :=
  match i with
  | .setDuration _ => [8, 9]
  | .setSchedule _ => [14, 15]
  | .setSchedEn _ => [14]
  | .setAkw _ => [15]
  | .setRiceId _ => [17, 18]
  | .setTaste _ => [19]
  | .serialize => [20, 21]
  | .load | .loadOpt => List.range 22
  | .nop | .crcClear | .crcFeed _ | .crcRead | .crcCheck | .inClear | .inByte _ => []
  | .getDevtype | .getSubtype | .getMenuIndex | .getMenuId | .getFlags | .getDuration | .getMaxTime | .getMinTime
  | .getSchedule | .getSchedEn | .getAkw | .getRiceId | .getTaste | .getCaps | .getTrailer | .readByte _ => []
  | .optClear | .optDuration _ | .optSchedule _ | .optAkw _ | .optTaste _ => []

/-- Two states with the same registers and host list, the response registers `STATUS`, `RESULT`, `ERRLOG` and
`rsp_valid` apart. -/
abbrev sameButResponse (s t : State) : Prop :=
  t = { s with status := t.status, result := t.result, errlog := t.errlog, rspValid := t.rspValid }

/-! The read and write sets of 10_state.md R36. -/

/-- What a row of R36 names: a byte of `F` or of `IBUF`, or a whole register. -/
inductive Reg where
  | f (k : Fin 22)
  | valid
  | ibuf (k : Fin 22)
  | ilen
  | icrc
  | crc
  | optPresent
  | optDur
  | optSched
  | optAkw
  | optTaste
  deriving DecidableEq, Repr

/-- The value a register holds. -/
def Reg.value (r : Reg) (s : State) : Nat :=
  match r with
  | .f k => s.f[k].toNat
  | .valid => s.valid.toNat
  | .ibuf k => s.ibuf[k].toNat
  | .ilen => s.ilen.toNat
  | .icrc => s.icrc.toNat
  | .crc => s.crc.toNat
  | .optPresent => s.optPresent.toNat
  | .optDur => s.optDur.toNat
  | .optSched => s.optSched.toNat
  | .optAkw => s.optAkw.toNat
  | .optTaste => s.optTaste.toNat

/-- `F`, byte by byte. -/
def allF : List Reg := (List.finRange 22).map .f

/-- `IBUF`, byte by byte. -/
def allIbuf : List Reg := (List.finRange 22).map .ibuf

/-- All `OPT_*`. -/
def allOpt : List Reg := [.optPresent, .optDur, .optSched, .optAkw, .optTaste]

/-- The column "reads" of R36. -/
def readSet (i : Instr) : List Reg :=
  match i with
  | .nop | .crcClear | .inClear | .optClear => []
  | .crcFeed _ | .crcRead | .crcCheck => [.crc]
  | .inByte _ => [.ilen, .icrc]
  | .load => [.ilen, .icrc] ++ allIbuf
  | .getDevtype | .getSubtype | .getMenuIndex | .getMenuId | .getFlags | .getDuration | .getMaxTime | .getMinTime
  | .getSchedule | .getSchedEn | .getAkw | .getRiceId | .getTaste | .getCaps | .getTrailer | .readByte _ =>
    .valid :: allF
  | .setDuration _ => [.valid, .f 10, .f 11, .f 12, .f 13]
  | .setSchedule _ => [.valid, .f 7, .f 15]
  | .setSchedEn _ => [.valid, .f 14]
  | .setAkw _ => [.valid, .f 7, .f 15]
  | .setRiceId _ | .setTaste _ => [.valid, .f 3, .f 4, .f 5, .f 6]
  | .optDuration _ | .optSchedule _ | .optAkw _ | .optTaste _ => [.optPresent]
  | .loadOpt => [.ilen, .icrc] ++ allIbuf ++ allOpt
  | .serialize => .valid :: allF.take 20

/-- The column "writes" of R36. -/
def writeSet (i : Instr) : List Reg :=
  match i with
  | .nop | .crcRead | .crcCheck => []
  | .crcClear | .crcFeed _ => [.crc]
  | .inClear => [.ilen, .icrc]
  | .inByte _ => [.ilen, .icrc] ++ allIbuf
  | .load => [.valid, .ilen, .icrc] ++ allF
  | .getDevtype | .getSubtype | .getMenuIndex | .getMenuId | .getFlags | .getDuration | .getMaxTime | .getMinTime
  | .getSchedule | .getSchedEn | .getAkw | .getRiceId | .getTaste | .getCaps | .getTrailer | .readByte _ => []
  | .setDuration _ => [.f 8, .f 9]
  | .setSchedule _ => [.f 14, .f 15]
  | .setSchedEn _ => [.f 14]
  | .setAkw _ => [.f 15]
  | .setRiceId _ => [.f 17, .f 18]
  | .setTaste _ => [.f 19]
  | .optClear => allOpt
  | .optDuration _ => [.optPresent, .optDur]
  | .optSchedule _ => [.optPresent, .optSched]
  | .optAkw _ => [.optPresent, .optAkw]
  | .optTaste _ => [.optPresent, .optTaste]
  | .loadOpt => [.valid, .ilen, .icrc] ++ allF ++ allOpt
  | .serialize => [.f 20, .f 21]

/-! The operands of assembler text (30_encoding.md R69). -/

/-- A mnemonic whose operand is a number, the bound of its form (R62), and the command of a number below it. -/
structure NumericOperand where
  mnemonic : String
  bound : Nat
  command : Nat → Instr

/-- The `BYTE`, `OFFSET` and `U32` rows of R63. -/
def numericOperands : List NumericOperand :=
  [⟨"CRC_FEED", 2 ^ 8, fun n => .crcFeed (BitVec.ofNat 8 n)⟩, ⟨"IN_BYTE", 2 ^ 8, fun n => .inByte (BitVec.ofNat 8 n)⟩,
    ⟨"READ_BYTE", 22, fun n => .readByte (BitVec.ofNat 5 n)⟩] ++
  [⟨"SET_DURATION", 2 ^ 32, fun n => .setDuration (BitVec.ofNat 32 n)⟩,
    ⟨"SET_SCHEDULE", 2 ^ 32, fun n => .setSchedule (BitVec.ofNat 32 n)⟩,
    ⟨"SET_RICE_ID", 2 ^ 32, fun n => .setRiceId (BitVec.ofNat 32 n)⟩,
    ⟨"SET_TASTE", 2 ^ 32, fun n => .setTaste (BitVec.ofNat 32 n)⟩] ++
  [⟨"OPT_DURATION", 2 ^ 32, fun n => .optDuration (BitVec.ofNat 32 n)⟩,
    ⟨"OPT_SCHEDULE", 2 ^ 32, fun n => .optSchedule (BitVec.ofNat 32 n)⟩,
    ⟨"OPT_TASTE", 2 ^ 32, fun n => .optTaste (BitVec.ofNat 32 n)⟩]

/-- The `BOOL` rows of R63. -/
def boolOperands : List (String × (Bool → Instr)) :=
  [("SET_SCHED_EN", .setSchedEn), ("SET_AKW", .setAkw), ("OPT_AKW", .optAkw)]

/-- The number that digits stand for, the most significant first. -/
def digitsValue (base : Nat) (digits : List Nat) : Nat := digits.foldl (fun n d => n * base + d) 0

/-- One word of a line: letters without a blank and without the comment sign. -/
def isLineWord (cs : List Char) : Bool := !cs.isEmpty && cs.all fun c => !isBlank c && c != ';'

end Sys2Proof.Machine
end

