-- ==== Sys2Proof/Certificates/Slice0/Obligations.lean ====
section
/-! DEFINITION. The statements for the provers. Each docstring names the rule of spec/ it formalises. -/

open Sys2Proof Sys2Proof.Machine

/-! Reset, the step, the invariant. -/

/-- R35: after a reset every register takes the value of R35's table, from whatever state. That a reset is an action of the
host taken by a step is the model's (log entry 1), and so is that what the host has still to do is left (log entry 2). -/
def Obligations.ResetPutsEveryRegisterAtItsResetValue : Prop :=
  ∀ (s : State) (rest : List HostAction), s.pending = .reset :: rest →
    ∃ t, step s = .next t ∧ (∀ (k : Nat) (h : k < 22), t.f[k] = 0 ∧ t.ibuf[k] = 0) ∧ t.valid = false ∧ t.ilen = 0 ∧
      t.icrc = 0 ∧ t.crc = 0 ∧ t.optPresent = 0 ∧ t.optDur = 0 ∧ t.optSched = 0 ∧ t.optAkw = false ∧ t.optTaste = 0 ∧
      t.status.code = 0 ∧ t.result = 0 ∧ t.errlog = 0 ∧ t.rspValid = false ∧ t.pending = rest

/-- The reset state meets the invariant of `Sys2Proof.Safety` (R32, R222, R22, R24 to R26, R28, R67). -/
def Obligations.ResetStateMeetsInvariant : Prop := State.reset.Inv

/-- Every step keeps the invariant, from every state that meets it: `ERRLOG`'s reserved bits read 0 (R32), an error shown
is recorded with result 0 (R222), `F` is untouched while `VALID = 0` (R22), `ICRC` is the CRC of the staged bytes
(R24 to R26), absent options hold 0 (R180, R186), and no response means reset (R67). -/
def Obligations.EveryStepKeepsInvariant : Prop :=
  ∀ s t : State, s.Inv → step s = .next t → t.Inv

/-- R252: "The block never halts or hangs of itself. Every command completes, and the next one can always be issued." -/
def Obligations.NothingStopsTheBlock : Prop :=
  (∀ s : State, ∃ t, step s = .next t) ∧ (∀ (i : Instr) (s : State), ∃ t, exec i s = .next t) ∧
  (∀ (w : CmdWord) (s : State), ∃ t, answerWord w s = .next t)

/-- A step takes the host's next action and runs the command its word decodes to (R60, R65); with nothing pending the
block waits (R242). The host's list and the waiting step are the model's (log entry 1), the table's word is log entry 9. -/
def Obligations.StepRunsTheDecodedCommand : Prop :=
  (∀ (s : State) (w : CmdWord) (rest : List HostAction) (i : Instr), s.pending = .command w :: rest → decode w = .ok i →
    step s = exec i { s with pending := rest }) ∧
  (∀ s : State, s.pending = [] → step s = .next s) ∧
  (∀ (s : State) (i : Instr), i.wellFormed = true → step (s.withFetchWord 40 (encode i).toNat) = exec i s)

/-- R51: "the state after commands `c1 ... cn` is the left fold of each command's step". The host's list is the model's (log
entry 1). -/
def Obligations.RunIsTheLeftFoldOfTheCommands : Prop :=
  ∀ (ws : List CmdWord) (s : State), s.pending = ws.map .command →
    Host.Core.run Sys2Proof.core ws.length s = answerWords ws { s with pending := [] }

/-! Encoding. -/

/-- R61 to R63: decoding the word of a well-formed command gives the command back, every operand at every value. -/
def Obligations.DecodeOfEncodeIsTheCommand : Prop :=
  ∀ i : Instr, i.wellFormed = true → decode (encode i) = .ok i

/-- R61 to R64: a word decodes to one well-formed command, whose word it is: no bit of a legal word is dropped. -/
def Obligations.EncodeOfDecodeIsTheWord : Prop :=
  ∀ (w : CmdWord) (i : Instr), decode w = .ok i → i.wellFormed = true ∧ encode i = w

/-- R64 and R65: the words the decoder refuses are exactly those of R64 (a) and (b), whatever the state, and such a word
changes nothing but `STATUS`, `RESULT` and `ERRLOG` (and shows a response). -/
def Obligations.IllegalWordsAreAnsweredErrIllegal : Prop :=
  (∀ (opcode : Byte) (arg : Word),
    (∃ e, decode (commandWord opcode arg) = .error e) ↔ illegalWord opcode.toNat arg.toNat) ∧
  (∀ (opcode : Byte) (arg : Word) (s : State), illegalWord opcode.toNat arg.toNat →
    answerWord (commandWord opcode arg) s =
      .next { s with status := .errIllegal, result := 0, errlog := s.errlog ||| 0x0100, rspValid := true })

/-- R63: every decoded word lies in the row of opcode_table.json of its command, and every word of a row (for `READ_BYTE`
within R145's bound) decodes to that row's command. -/
def Obligations.LegalWordsAreTheRowsOfTheTable : Prop :=
  (∀ (w : CmdWord) (i : Instr), decode w = .ok i → w &&& i.tableRow.mask = i.tableRow.pattern) ∧
  (∀ (w : CmdWord) (j : Instr), w &&& j.tableRow.mask = j.tableRow.pattern → (argOf w).toNat ≤ 21 ∨ j.opcode ≠ 0x21 →
    ∃ i, decode w = .ok i ∧ i.tableRow = j.tableRow)

/-- Words written out from R61 and R63, one or more of each family, decode to the command they stand for. -/
def Obligations.SampleWordsDecode : Prop :=
  decode 0x0000000000 = .ok .nop ∧ decode 0x0200000041 = .ok (.crcFeed 0x41) ∧
  decode 0x1100000002 = .ok (.inByte 0x02) ∧ decode 0x1200000000 = .ok .load ∧
  decode 0x200000000D = .ok .getCaps ∧ decode 0x2100000015 = .ok (.readByte 21) ∧
  decode 0x3200000001 = .ok (.setSchedEn true) ∧ decode 0x30FFFFFFFF = .ok (.setDuration 0xFFFFFFFF) ∧
  decode 0x4300000001 = .ok (.optAkw true) ∧ decode 0x4500000000 = .ok .loadOpt ∧
  decode 0x5000000000 = .ok .serialize

/-- R69, the assembler. Every well-formed command, written as a line with or without a comment after it, assembles to
its word. A number operand is read in decimal and in `0x` hexadecimal, with any number of digits (in lower case; the lines
of the first clause have upper case), and refused from its form's bound on; a `BOOL` operand is `0`, `1`, `false` or `true` and any other word is refused; an operand is refused where there is
none and missed where there is one; and a first word that is no mnemonic is refused. The blanks between words and the letter
case of hex digits are the model's choice (log entry 11), and so is that the names of R70 are no mnemonics of a line (log
entry 16). -/
def Obligations.AssemblerAssemblesEveryCommand : Prop :=
  (∀ (i : Instr) (comment : List Char), i.wellFormed = true →
    assembleLine (lineOf i) = .ok (some (encode i)) ∧
    assembleLine (lineOf i ++ ' ' :: ';' :: comment) = .ok (some (encode i))) ∧
  (∀ row ∈ numericOperands, assembleLine row.mnemonic.toList = .error .missingOperand ∧
    ∀ digits : List Nat, digits ≠ [] →
      ((∀ d ∈ digits, d < 10) → assembleLine (row.mnemonic.toList ++ ' ' :: digits.map Nat.digitChar) =
        if digitsValue 10 digits < row.bound then .ok (some (encode (row.command (digitsValue 10 digits))))
        else .error .badOperand) ∧
      ((∀ d ∈ digits, d < 16) → assembleLine (row.mnemonic.toList ++ ' ' :: '0' :: 'x' :: digits.map Nat.digitChar) =
        if digitsValue 16 digits < row.bound then .ok (some (encode (row.command (digitsValue 16 digits))))
        else .error .badOperand)) ∧
  (∀ row ∈ boolOperands, assembleLine row.1.toList = .error .missingOperand ∧
    ∀ operand : List Char, isLineWord operand = true → assembleLine (row.1.toList ++ ' ' :: operand) =
      if operand = "0".toList ∨ operand = "false".toList then .ok (some (encode (row.2 false)))
      else if operand = "1".toList ∨ operand = "true".toList then .ok (some (encode (row.2 true)))
      else .error .badOperand) ∧
  (∀ (i : Instr) (operand : List Char), operandText i = [] → isLineWord operand = true →
    assembleLine (lineOf i ++ ' ' :: operand) = .error .extraOperand) ∧
  (∀ word rest : List Char, isLineWord word = true → (∀ i : Instr, word ≠ (mnemonicOf i).toList) →
    assembleLine (word ++ ' ' :: rest) = .error .unknownMnemonic)

/-! The CRC function. -/

/-- R81: `crc_update` as the loop of R81 on numbers: eight times, shift left and, when bit 15 was set, XOR 0x1021, all
modulo 2^16. -/
def Obligations.CrcUpdateIsTheBitSerialLoop : Prop :=
  ∀ (c : Half) (b : Byte), (crcUpdate c b).toNat =
    (fun x : Nat => if 0x8000 ≤ x then ((2 * x) ^^^ 0x1021) % 0x10000 else (2 * x) % 0x10000)^[8]
      (c.toNat ^^^ (b.toNat * 0x100))

/-- R80: `crc16` is the fold of `crc_update` from 0x0000, 0 on the empty sequence, and it is the remainder of
`M(x) * x^16` divided by `G(x) = x^16 + x^12 + x^5 + 1` over GF(2) (a value of 16 bits that differs from `M(x) * x^16` by a
multiple of `G`). -/
def Obligations.CrcIsThePolynomialRemainder : Prop :=
  crc16 [] = 0 ∧ (∀ m : List Byte, crc16 m = m.foldl crcUpdate 0) ∧
  (∀ m : List Byte, ∃ q : List Bool, polyTimes q 0x11021 ^^^ (crc16 m).toNat = messagePoly m <<< 16)

/-- R86, the trailer law. -/
def Obligations.CrcTrailerLaw : Prop :=
  ∀ (m : List Byte) (t : Half), crc16 (m ++ trailerBytes t) = 0 ↔ t = crc16 m

/-- R87, the zero-prefix law, with its corollary: a frame of 22 zero bytes parses with `OK`. -/
def Obligations.CrcZeroPrefixLaw : Prop :=
  crcUpdate 0 0 = 0 ∧ (∀ (n : Nat) (m : List Byte), crc16 (List.replicate n 0 ++ m) = crc16 m) ∧
  (∀ n : Nat, crc16 (List.replicate n 0) = 0) ∧
  (∀ s : State, ∃ t, execAll (Pseudo.parse (List.replicate 22 0)).expand s = .next t ∧ t.status = .ok)

/-- R88: flipping one bit changes the CRC, and a frame with a good CRC and one payload bit flipped fails `LOAD` with
`ERR_INTEGRITY`. -/
def Obligations.CrcSingleBitSensitivity : Prop :=
  (∀ (m : List Byte) (i j : Nat), i < m.length → j < 8 → crc16 (flipBit m i j) ≠ crc16 m) ∧
  (∀ (g : Frame) (i j : Nat) (s : State), crc16 g.toList = 0 → i < 20 → j < 8 →
    ∃ t, execAll (Pseudo.parse (flipBit g.toList i j)).expand s = .next t ∧ t.status = .errIntegrity)

/-- R89, linearity. -/
def Obligations.CrcIsLinear : Prop :=
  ∀ a b : List Byte, a.length = b.length → crc16 (List.zipWith (· ^^^ ·) a b) = crc16 a ^^^ crc16 b

/-! Responses. -/

/-- R220 and R222: `respond` writes the status, the result (0 with an error), sets the one bit of `ERRLOG` that the code
of an error names, and changes nothing else; the nine statuses have the codes 0 to 8 in R220's order. -/
def Obligations.RespondWritesOnlyTheResponse : Prop :=
  (∀ (st : Status) (r : Word) (s : State), sameButResponse s (respond st r s) ∧ (respond st r s).status = st ∧
    (respond st r s).result = (if st.code.toNat ≥ 2 then 0 else r) ∧ (respond st r s).rspValid = true ∧
    ∀ k : Nat, k < 16 → (respond st r s).errlog.getLsbD k =
      (s.errlog.getLsbD k || (decide (k = st.code.toNat) && decide (st.code.toNat ≥ 2)))) ∧
  [Status.ok, .ignored, .errFormat, .errIntegrity, .errValidation, .errLength, .errRange, .errNoProfile,
    .errIllegal].map Status.code = [0, 1, 2, 3, 4, 5, 6, 7, 8] ∧
  (∀ st : Status, st.code.toNat ≤ 8)

/-- R32: no command reads `ERRLOG`, and each sets in it exactly the bit of the error it ends with: with another `ERRLOG`
everything else comes out the same. So no command clears a bit. Bits 0, 1 and 9 to 15 stay 0. -/
def Obligations.ErrlogIsStickyAndUnread : Prop :=
  (∀ (i : Instr) (s t : State) (e : Half), exec i s = .next t →
    exec i { s with errlog := e } = .next { t with errlog := e ||| errlogBit t.status }) ∧
  (∀ (w : CmdWord) (s t : State), answerWord w s = .next t →
    (∀ k : Nat, s.errlog.getLsbD k = true → t.errlog.getLsbD k = true) ∧
    (s.errlog &&& 0xFE03 = 0 → t.errlog &&& 0xFE03 = 0))

/-- R223: what an error leaves behind, for commands and for illegal words. -/
def Obligations.ErrorsLeaveTheRestAlone : Prop :=
  (∀ (w : CmdWord) (s t : State), answerWord w s = .next t → t.status = .errIllegal → sameButResponse s t) ∧
  ∀ (i : Instr) (s t : State), exec i s = .next t → 2 ≤ t.status.code.toNat →
    t.f = s.f ∧ t.valid = s.valid ∧ t.crc = s.crc ∧ t.ibuf = s.ibuf ∧ t.result = 0 ∧ t.pending = s.pending ∧
    (i ≠ .load → i ≠ .loadOpt → sameButResponse s t) ∧
    (i = .load → sameButResponse (clearStaging s) t) ∧
    (i = .loadOpt → sameButResponse (clearOptions (clearStaging s)) t) ∧
    (t.status = .errIllegal ∨ t.status = .errNoProfile → sameButResponse s t)

/-- R225: every command ends with a status of its row. -/
def Obligations.EveryCommandReportsAStatusOfItsRow : Prop :=
  ∀ (i : Instr) (s t : State), exec i s = .next t → t.status ∈ possibleStatuses i

/-! The Checksum Engine. -/

/-- R82 and R83: `CRC_CLEAR` and `CRC_FEED`, for every argument of their opcodes. -/
def Obligations.CrcClearAndCrcFeedFollowTheirRules : Prop :=
  (∀ s : State, exec .crcClear s = .next (respond .ok 0 { s with crc := 0x0000 })) ∧
  (∀ (b : Byte) (s : State), exec (.crcFeed b) s = .next (respond .ok 0 { s with crc := crcUpdate s.crc b })) ∧
  (∀ (arg : Word) (s : State), answerWord (commandWord 0x01 arg) s =
    if arg.toNat = 0 then exec .crcClear s else .next (respond .errIllegal 0 s)) ∧
  (∀ (arg : Word) (s : State), answerWord (commandWord 0x02 arg) s =
    if arg.toNat < 256 then exec (.crcFeed (BitVec.ofNat 8 arg.toNat)) s else .next (respond .errIllegal 0 s))

/-- R84 and R85: `CRC_READ` and `CRC_CHECK`, for every argument of their opcodes; neither writes `CRC`. -/
def Obligations.CrcReadAndCrcCheckFollowTheirRules : Prop :=
  (∀ s : State, exec .crcRead s = .next (respond .ok (BitVec.ofNat 32 s.crc.toNat) s)) ∧
  (∀ s : State, exec .crcCheck s = .next (respond .ok (if s.crc.toNat = 0 then 1 else 0) s)) ∧
  (∀ (arg : Word) (s : State), answerWord (commandWord 0x03 arg) s =
    if arg.toNat = 0 then exec .crcRead s else .next (respond .errIllegal 0 s)) ∧
  (∀ (arg : Word) (s : State), answerWord (commandWord 0x04 arg) s =
    if arg.toNat = 0 then exec .crcCheck s else .next (respond .errIllegal 0 s)) ∧
  (∀ (bytes : List Byte) (s : State), ∃ t, execAll (Pseudo.checksum bytes).expand s = .next t ∧
    t.status = .ok ∧ t.result = (crc16 bytes).setWidth 32)

/-- R70, R84 to R86: `CHECKSUM` returns `checksum(bytes)`, `VERIFY` whether the running CRC is 0, which for a message and
a trailer is whether the trailer is the message's CRC; both write only `CRC` and the response. -/
def Obligations.ChecksumAndVerifyAreTheSourcesFunctions : Prop :=
  (∀ (bytes : List Byte) (s : State), ∃ t, execAll (Pseudo.checksum bytes).expand s = .next t ∧
    t.status = .ok ∧ t.result.toNat = (crc16 bytes).toNat ∧ sameButResponse { s with crc := crc16 bytes } t) ∧
  (∀ (bytes : List Byte) (s : State), ∃ t, execAll (Pseudo.verify bytes).expand s = .next t ∧
    t.status = .ok ∧ t.result = (if crc16 bytes = 0 then 1 else 0) ∧ sameButResponse { s with crc := crc16 bytes } t) ∧
  (∀ (m : List Byte) (c : Half) (s : State), ∃ t, execAll (Pseudo.verify (m ++ trailerBytes c)).expand s = .next t ∧
    (t.result = 1 ↔ c = crc16 m))

/-! Input and parse. -/

/-- R100 and R101: `IN_CLEAR` and `IN_BYTE`, for every argument of their opcodes. -/
def Obligations.InClearAndInByteFollowTheirRules : Prop :=
  (∀ s : State, exec .inClear s = .next (respond .ok 0 { s with ilen := 0, icrc := 0x0000 })) ∧
  (∀ (b : Byte) (s : State), ∃ t, exec (.inByte b) s = .next t ∧ t.status = .ok ∧ t.result = 0 ∧
    (∀ (k : Nat) (h : k < 22), t.ibuf[k] = if k = s.ilen.toNat then b else s.ibuf[k]) ∧
    t.icrc = crcUpdate s.icrc b ∧ t.ilen.toNat = min (s.ilen.toNat + 1) 0xFFFF ∧
    sameButResponse { s with ibuf := t.ibuf, icrc := t.icrc, ilen := t.ilen } t ∧ t.errlog = s.errlog) ∧
  (∀ (arg : Word) (s : State), answerWord (commandWord 0x10 arg) s =
    if arg.toNat = 0 then exec .inClear s else .next (respond .errIllegal 0 s)) ∧
  (∀ (arg : Word) (s : State), answerWord (commandWord 0x11 arg) s =
    if arg.toNat < 256 then exec (.inByte (BitVec.ofNat 8 arg.toNat)) s else .next (respond .errIllegal 0 s))

/-- R102 and R104: `LOAD` by the length and the running CRC of the staged input. The staging state is cleared whatever
the verdict; `F` and `VALID` change only with `OK`. -/
def Obligations.LoadFollowsTheParseVerdict : Prop :=
  (∀ s : State, s.ilen.toNat < 5 →
    exec .load s = .next (respond .errFormat 0 { s with ilen := 0, icrc := 0 })) ∧
  (∀ s : State, 5 ≤ s.ilen.toNat → s.icrc ≠ 0 →
    exec .load s = .next (respond .errIntegrity 0 { s with ilen := 0, icrc := 0 })) ∧
  (∀ s : State, 5 ≤ s.ilen.toNat → s.icrc = 0 → s.ilen.toNat ≠ 22 →
    exec .load s = .next (respond .errLength 0 { s with ilen := 0, icrc := 0 })) ∧
  (∀ s : State, s.ilen.toNat = 22 → s.icrc = 0 →
    exec .load s = .next (respond .ok 0 { s with ilen := 0, icrc := 0, f := s.ibuf, valid := true })) ∧
  (∀ (arg : Word) (s : State), answerWord (commandWord 0x12 arg) s =
    if arg.toNat = 0 then exec .load s else .next (respond .errIllegal 0 s))

/-- R105: the outcome of `LOAD` by the true length and CRC of the bytes streamed, of any length (past the saturation of
`ILEN` too), from any state. -/
def Obligations.ParseOutcomeByLengthAndCrc : Prop :=
  ∀ (bytes : List Byte) (s : State), ∃ t, execAll (Pseudo.parse bytes).expand s = .next t ∧
    t.status = (if bytes.length ≤ 4 then .errFormat else if crc16 bytes ≠ 0 then .errIntegrity
      else if bytes.length ≠ 22 then .errLength else .ok) ∧
    t.ilen = 0 ∧ t.icrc = 0 ∧ t.crc = s.crc ∧ t.optPresent = s.optPresent ∧
    (t.status = .ok → t.f.toList = bytes ∧ t.valid = true) ∧
    (t.status ≠ .ok → t.f = s.f ∧ t.valid = s.valid)

/-- R23 and R104: after `LOAD`, after `LOAD_OPT` with no option applied and after `SERIALIZE`, the trailer is the CRC of
the payload. The staged input is taken as the invariant has it. -/
def Obligations.TrailerHoldsAfterLoadAndSerialize : Prop :=
  ∀ s t : State, s.Inv → t.status = .ok →
    (exec .load s = .next t → trailer t.f = crc16 (payload t.f)) ∧
    (exec .loadOpt s = .next t → t.result = 0 → trailer t.f = crc16 (payload t.f)) ∧
    (exec .serialize s = .next t → trailer t.f = crc16 (payload t.f))

/-! The extractor. -/

/-- R120 to R124, in the source's words on bytes: the flag bits 0x40 and 0x20, max cook time above min cook time in
minutes, menu identifier bytes `00 00 00 01` or `00 00 00 02` (R125). -/
def Obligations.CapabilityPredicatesReadTheirBytes : Prop :=
  ∀ f : Frame,
    (canSchedule f = true ↔ f[7] &&& 0x40 ≠ 0) ∧ (canAkw f = true ↔ f[7] &&& 0x20 ≠ 0) ∧
    (canSetDuration f = true ↔ f[10].toNat * 60 + f[11].toNat > f[12].toNat * 60 + f[13].toNat) ∧
    (canChooseRice f = true ↔ f[3] = 0 ∧ f[4] = 0 ∧ f[5] = 0 ∧ (f[6] = 1 ∨ f[6] = 2)) ∧
    (canTaste f = true ↔ f[3] = 0 ∧ f[4] = 0 ∧ f[5] = 0 ∧ f[6] = 1)

/-- R127 to R131, R138, R139 and R141: the byte, menu identifier, rice and trailer fields. -/
def Obligations.GetFieldReturnsTheStoredFields : Prop :=
  ∀ s : State, s.valid = true →
    exec .getDevtype s = .next (respond .ok (BitVec.ofNat 32 s.f[0].toNat) s) ∧
    exec .getSubtype s = .next (respond .ok (BitVec.ofNat 32 s.f[1].toNat) s) ∧
    exec .getMenuIndex s = .next (respond .ok (BitVec.ofNat 32 s.f[2].toNat) s) ∧
    exec .getMenuId s = .next (respond .ok (BitVec.ofNat 32
      (s.f[3].toNat * 2 ^ 24 + s.f[4].toNat * 2 ^ 16 + s.f[5].toNat * 2 ^ 8 + s.f[6].toNat)) s) ∧
    exec .getFlags s = .next (respond .ok (BitVec.ofNat 32 s.f[7].toNat) s) ∧
    exec .getRiceId s = .next (respond .ok (BitVec.ofNat 32 (s.f[17].toNat * 2 ^ 8 + s.f[18].toNat)) s) ∧
    exec .getTaste s = .next (respond .ok (BitVec.ofNat 32 s.f[19].toNat) s) ∧
    exec .getTrailer s = .next (respond .ok (BitVec.ofNat 32 (s.f[20].toNat * 2 ^ 8 + s.f[21].toNat)) s)

/-- R132 to R137 and R140: the time fields in minutes, the packed flags of bytes 14 and 15, and the five predicates. -/
def Obligations.GetFieldReturnsTheComputedFields : Prop :=
  ∀ s : State, s.valid = true →
    exec .getDuration s = .next (respond .ok (BitVec.ofNat 32 (s.f[8].toNat * 60 + s.f[9].toNat)) s) ∧
    exec .getMaxTime s = .next (respond .ok (BitVec.ofNat 32 (s.f[10].toNat * 60 + s.f[11].toNat)) s) ∧
    exec .getMinTime s = .next (respond .ok (BitVec.ofNat 32 (s.f[12].toNat * 60 + s.f[13].toNat)) s) ∧
    exec .getSchedule s = .next (respond .ok
      (BitVec.ofNat 32 ((s.f[14].toNat % 128) * 60 + s.f[15].toNat % 128)) s) ∧
    exec .getSchedEn s = .next (respond .ok (BitVec.ofNat 32 (s.f[14].toNat / 128)) s) ∧
    exec .getAkw s = .next (respond .ok (BitVec.ofNat 32 (s.f[15].toNat / 128)) s) ∧
    exec .getCaps s = .next (respond .ok (BitVec.ofNat 32 ((canSchedule s.f).toNat + 2 * (canAkw s.f).toNat +
      4 * (canSetDuration s.f).toNat + 8 * (canChooseRice s.f).toNat + 16 * (canTaste s.f).toNat)) s)

/-- R126: `GET_FIELD` for every argument: decode first, then `VALID`, then a value; no register changes but the
response. -/
def Obligations.GetFieldChecksInOrder : Prop :=
  ∀ (arg : Word) (s : State),
    (14 < arg.toNat → answerWord (commandWord 0x20 arg) s = .next (respond .errIllegal 0 s)) ∧
    (arg.toNat ≤ 14 → s.valid = false → answerWord (commandWord 0x20 arg) s = .next (respond .errNoProfile 0 s)) ∧
    (arg.toNat ≤ 14 → s.valid = true → ∃ v, answerWord (commandWord 0x20 arg) s = .next (respond .ok v s))

/-- R145: `READ_BYTE` for every argument. -/
def Obligations.ReadByteFollowsItsRule : Prop :=
  (∀ (k : BitVec 5) (h : k.toNat < 22) (s : State), s.valid = true →
    exec (.readByte k) s = .next (respond .ok (BitVec.ofNat 32 s.f[k.toNat].toNat) s)) ∧
  (∀ (arg : Word) (s : State), answerWord (commandWord 0x21 arg) s =
    if h : arg.toNat < 22 then
      if s.valid then .next (respond .ok (BitVec.ofNat 32 s.f[arg.toNat].toNat) s)
      else .next (respond .errNoProfile 0 s)
    else .next (respond .errIllegal 0 s))

/-! The mutators. -/

/-- R150 and R153: `clamp` is `max(lo, min(x, hi))` on an interval, and `split60` the hours and the minutes below 60. -/
def Obligations.ClampAndSplitComputeTheirFunctions : Prop :=
  (∀ x lo hi : Nat, lo ≤ hi → clamp x lo hi = max lo (min x hi)) ∧
  (∀ x : Nat, (split60 x).1 * 60 + (split60 x).2 = x ∧ (split60 x).2 < 60)

/-- R152: `SET_DURATION`, every case, the bounds read from the frame's bytes. -/
def Obligations.SetDurationFollowsItsRule : Prop :=
  ∀ (n : Word) (s : State) (lo hi d : Nat),
    lo = s.f[12].toNat * 60 + s.f[13].toNat → hi = s.f[10].toNat * 60 + s.f[11].toNat → d = max lo (min n.toNat hi) →
    (s.valid = false → exec (.setDuration n) s = .next (respond .errNoProfile 0 s)) ∧
    (s.valid = true → hi ≤ lo → exec (.setDuration n) s = .next (respond .ignored 0 s)) ∧
    (s.valid = true → lo < hi → d / 60 ≤ 255 → exec (.setDuration n) s =
      .next (respond .ok 0 { s with f := (s.f.set 8 (BitVec.ofNat 8 (d / 60))).set 9 (BitVec.ofNat 8 (d % 60)) })) ∧
    (s.valid = true → lo < hi → 255 < d / 60 → exec (.setDuration n) s = .next (respond .errRange 0 s)) ∧
    answerWord (commandWord 0x30 n) s = exec (.setDuration n) s

/-- R156: `SET_SCHEDULE`, every case. -/
def Obligations.SetScheduleFollowsItsRule : Prop :=
  ∀ (n : Word) (s : State),
    (s.valid = false → exec (.setSchedule n) s = .next (respond .errNoProfile 0 s)) ∧
    (s.valid = true → canSchedule s.f = false → exec (.setSchedule n) s = .next (respond .ignored 0 s)) ∧
    (s.valid = true → canSchedule s.f = true → n.toNat < 7680 → exec (.setSchedule n) s =
      .next (respond .ok 0 { s with
        f := (s.f.set 14 (BitVec.ofNat 8 (128 + n.toNat / 60))).set 15
          (BitVec.ofNat 8 (128 * (s.f[15].toNat / 128) + n.toNat % 60)) })) ∧
    (s.valid = true → canSchedule s.f = true → 7680 ≤ n.toNat →
      exec (.setSchedule n) s = .next (respond .errRange 0 s)) ∧
    answerWord (commandWord 0x31 n) s = exec (.setSchedule n) s

/-- R157 and R158: `SET_SCHED_EN` (no gate) and `SET_AKW` (gated): the bit set to `v`, the low seven bits kept. -/
def Obligations.SetSchedEnAndSetAkwFollowTheirRules : Prop :=
  ∀ (v : Bool) (s : State),
    (s.valid = false → exec (.setSchedEn v) s = .next (respond .errNoProfile 0 s) ∧
      exec (.setAkw v) s = .next (respond .errNoProfile 0 s)) ∧
    (s.valid = true → exec (.setSchedEn v) s = .next (respond .ok 0
      { s with f := s.f.set 14 (BitVec.ofNat 8 (128 * v.toNat + s.f[14].toNat % 128)) })) ∧
    (s.valid = true → canAkw s.f = false → exec (.setAkw v) s = .next (respond .ignored 0 s)) ∧
    (s.valid = true → canAkw s.f = true → exec (.setAkw v) s = .next (respond .ok 0
      { s with f := s.f.set 15 (BitVec.ofNat 8 (128 * v.toNat + s.f[15].toNat % 128)) })) ∧
    (∀ arg : Word, answerWord (commandWord 0x32 arg) s =
      if arg.toNat ≤ 1 then exec (.setSchedEn (decide (arg.toNat = 1))) s else .next (respond .errIllegal 0 s)) ∧
    (∀ arg : Word, answerWord (commandWord 0x33 arg) s =
      if arg.toNat ≤ 1 then exec (.setAkw (decide (arg.toNat = 1))) s else .next (respond .errIllegal 0 s))

/-- R159: `SET_RICE_ID`, every case: an id above 0xFFFF becomes 0. -/
def Obligations.SetRiceIdFollowsItsRule : Prop :=
  ∀ (n : Word) (s : State),
    (s.valid = false → exec (.setRiceId n) s = .next (respond .errNoProfile 0 s)) ∧
    (s.valid = true → canChooseRice s.f = false → exec (.setRiceId n) s = .next (respond .ignored 0 s)) ∧
    (s.valid = true → canChooseRice s.f = true → n.toNat ≤ 0xFFFF → exec (.setRiceId n) s =
      .next (respond .ok 0 { s with
        f := (s.f.set 17 (BitVec.ofNat 8 (n.toNat / 256))).set 18 (BitVec.ofNat 8 (n.toNat % 256)) })) ∧
    (s.valid = true → canChooseRice s.f = true → 0xFFFF < n.toNat → exec (.setRiceId n) s =
      .next (respond .ok 0 { s with f := (s.f.set 17 0).set 18 0 })) ∧
    answerWord (commandWord 0x34 n) s = exec (.setRiceId n) s

/-- R160: `SET_TASTE`, every case: validation before the gate. -/
def Obligations.SetTasteFollowsItsRule : Prop :=
  ∀ (n : Word) (s : State),
    (s.valid = false → exec (.setTaste n) s = .next (respond .errNoProfile 0 s)) ∧
    (s.valid = true → 2 < n.toNat → exec (.setTaste n) s = .next (respond .errValidation 0 s)) ∧
    (s.valid = true → n.toNat ≤ 2 → canTaste s.f = false → exec (.setTaste n) s = .next (respond .ignored 0 s)) ∧
    (s.valid = true → n.toNat ≤ 2 → canTaste s.f = true → exec (.setTaste n) s =
      .next (respond .ok 0 { s with f := s.f.set 19 (BitVec.ofNat 8 n.toNat) })) ∧
    answerWord (commandWord 0x35 n) s = exec (.setTaste n) s

/-- R161, the gate map: on a loaded profile each mutator is ignored exactly when its predicate is false, `SET_SCHED_EN`
never; only `SET_TASTE` has a validation error and only `SET_DURATION` and `SET_SCHEDULE` a range error. -/
def Obligations.GateMap : Prop :=
  ∀ (s t : State) (n : Word) (v : Bool), s.valid = true →
    (exec (.setDuration n) s = .next t → (t.status = .ignored ↔ canSetDuration s.f = false) ∧ t.status ≠ .errValidation) ∧
    (exec (.setSchedule n) s = .next t → (t.status = .ignored ↔ canSchedule s.f = false) ∧ t.status ≠ .errValidation) ∧
    (exec (.setSchedEn v) s = .next t → t.status = .ok) ∧
    (exec (.setAkw v) s = .next t → t.status = if canAkw s.f then .ok else .ignored) ∧
    (exec (.setRiceId n) s = .next t → t.status = if canChooseRice s.f then .ok else .ignored) ∧
    (exec (.setTaste n) s = .next t →
      (t.status = .ignored ↔ n.toNat ≤ 2 ∧ canTaste s.f = false) ∧ t.status ≠ .errRange)

/-- R152, R156 to R160, and the source's properties 3 and 5: what an applied mutator wrote reads back through the
extractor, and the flag packed beside it is kept (R46). -/
def Obligations.MutatedFieldsReadBack : Prop :=
  ∀ (s t : State) (n : Word) (v : Bool), s.valid = true → t.status = .ok →
    (exec (.setDuration n) s = .next t → duration t.f = max (minTime s.f) (min n.toNat (maxTime s.f)) ∧
      minTime s.f ≤ duration t.f ∧ duration t.f ≤ maxTime s.f) ∧
    (exec (.setSchedule n) s = .next t →
      schedule t.f = n.toNat ∧ schedEn t.f = true ∧ autoKeepWarm t.f = autoKeepWarm s.f) ∧
    (exec (.setSchedEn v) s = .next t → schedEn t.f = v ∧ schedule t.f = schedule s.f) ∧
    (exec (.setAkw v) s = .next t → autoKeepWarm t.f = v ∧ schedule t.f = schedule s.f) ∧
    (exec (.setRiceId n) s = .next t → (riceId t.f).toNat = if n.toNat > 0xFFFF then 0 else n.toNat) ∧
    (exec (.setTaste n) s = .next t → (taste t.f).toNat = n.toNat)

/-! Write sets and read sets. -/

/-- R36, the write sets: a register changes only under a command of R36's table that writes it, and no byte of `F` changes
but those the command names. R23 is the trailer's row. -/
def Obligations.CommandsWriteOnlyTheirWriteSet : Prop :=
  ∀ (i : Instr) (s t : State), exec i s = .next t →
    (∀ (k : Nat) (h : k < 22), k ∉ writtenOffsets i → t.f[k] = s.f[k]) ∧
    (t.valid ≠ s.valid → i = .load ∨ i = .loadOpt) ∧
    (t.crc ≠ s.crc → i = .crcClear ∨ ∃ b, i = .crcFeed b) ∧
    (t.ibuf ≠ s.ibuf → ∃ b, i = .inByte b) ∧
    (t.ilen ≠ s.ilen ∨ t.icrc ≠ s.icrc → i = .inClear ∨ i = .load ∨ i = .loadOpt ∨ ∃ b, i = .inByte b) ∧
    (t.optPresent ≠ s.optPresent →
      i = .optClear ∨ i = .loadOpt ∨ ∃ n v, i ∈ [.optDuration n, .optSchedule n, .optAkw v, .optTaste n]) ∧
    (t.optDur ≠ s.optDur → i = .optClear ∨ i = .loadOpt ∨ ∃ n, i = .optDuration n) ∧
    (t.optSched ≠ s.optSched → i = .optClear ∨ i = .loadOpt ∨ ∃ n, i = .optSchedule n) ∧
    (t.optAkw ≠ s.optAkw → i = .optClear ∨ i = .loadOpt ∨ ∃ v, i = .optAkw v) ∧
    (t.optTaste ≠ s.optTaste → i = .optClear ∨ i = .loadOpt ∨ ∃ n, i = .optTaste n) ∧
    t.pending = s.pending ∧ t.rspValid = true

/-- R22: only a successful `LOAD` or `LOAD_OPT` sets `VALID`, and nothing but a reset clears it. -/
def Obligations.OnlyLoadsSetValidAndOnlyResetClearsIt : Prop :=
  (∀ (i : Instr) (s t : State), exec i s = .next t →
    (s.valid = true → t.valid = true) ∧
    (s.valid = false → t.valid = true → (i = .load ∨ i = .loadOpt) ∧ t.status = .ok)) ∧
  (∀ s t : State, step s = .next t → s.valid = true → t.valid = false → s.pending.head? = some .reset)

/-- R36, both columns, for every command: in two states that agree on the registers of its read set, and differ in
anything else (`STATUS`, `RESULT`, `ERRLOG`, `rsp_valid` of log entry 4 and the host's list of log entry 1 among it), it
answers with the same status and result; a register outside its write set keeps its value in both; and one inside is
written with the same value in both, or kept in both. R27 (`CRC`), R28 (only `LOAD_OPT` reads the option values), R29, R30
and R32 (no command reads the response registers) are among its rows. -/
def Obligations.CommandsReadOnlyTheirReadSet : Prop :=
  ∀ (i : Instr) (s s' t : State), exec i s = .next t → (∀ r ∈ readSet i, r.value s' = r.value s) →
    ∃ t', exec i s' = .next t' ∧ t'.status = t.status ∧ t'.result = t.result ∧
      t'.errlog = s'.errlog ||| errlogBit t.status ∧ t'.rspValid = true ∧ t'.pending = s'.pending ∧
      ∀ r : Reg, (r ∉ writeSet i → r.value t = r.value s ∧ r.value t' = r.value s') ∧
        (r.value t' = r.value t ∨ (r.value t = r.value s ∧ r.value t' = r.value s'))

/-- R24: bytes of `IBUF` at index `ILEN` or above are stale and no command reads them: two states that differ only there
end, after any command, with the same registers but for those bytes. -/
def Obligations.StaleStagedBytesAreNeverRead : Prop :=
  ∀ (i : Instr) (s t u : State) (g : Frame), (∀ (k : Nat) (h : k < 22), k < s.ilen.toNat → g[k] = s.ibuf[k]) →
    exec i s = .next t → exec i { s with ibuf := g } = .next u → u = { t with ibuf := u.ibuf } ∧
    ∀ (k : Nat) (h : k < 22), k < t.ilen.toNat → u.ibuf[k] = t.ibuf[k]

/-! Construction. -/

/-- R180 to R184: the staging commands, whatever `VALID` is; the option's bit of `OPT_PRESENT` is set and the others are
kept. -/
def Obligations.OptionCommandsFollowTheirRules : Prop :=
  ∀ (n : Word) (v : Bool) (s : State),
    exec .optClear s = .next (respond .ok 0
      { s with optPresent := 0, optDur := 0, optSched := 0, optAkw := false, optTaste := 0 }) ∧
    exec (.optDuration n) s = .next (respond .ok 0 { s with optDur := n, optPresent := s.optPresent ||| 1 }) ∧
    exec (.optSchedule n) s = .next (respond .ok 0 { s with optSched := n, optPresent := s.optPresent ||| 2 }) ∧
    exec (.optAkw v) s = .next (respond .ok 0 { s with optAkw := v, optPresent := s.optPresent ||| 4 }) ∧
    exec (.optTaste n) s = .next (respond .ok 0 { s with optTaste := n, optPresent := s.optPresent ||| 8 }) ∧
    answerWord (commandWord 0x41 n) s = exec (.optDuration n) s ∧
    answerWord (commandWord 0x42 n) s = exec (.optSchedule n) s ∧
    answerWord (commandWord 0x44 n) s = exec (.optTaste n) s ∧
    (∀ arg : Word, answerWord (commandWord 0x40 arg) s =
      if arg.toNat = 0 then exec .optClear s else .next (respond .errIllegal 0 s)) ∧
    (∀ arg : Word, answerWord (commandWord 0x43 arg) s =
      if arg.toNat ≤ 1 then exec (.optAkw (decide (arg.toNat = 1))) s else .next (respond .errIllegal 0 s))

/-- R186: `LOAD_OPT` clears the staging state and the options whatever its outcome; it commits a frame only when the parse
and the construction succeed, and then returns the applied mask. -/
def Obligations.LoadOptFollowsItsRule : Prop :=
  (∀ (s cleared : State),
    cleared = { s with
      ilen := 0, icrc := 0, optPresent := 0, optDur := 0, optSched := 0, optAkw := false, optTaste := 0 } →
    (parseVerdict s.ilen s.icrc ≠ .ok →
      exec .loadOpt s = .next (respond (parseVerdict s.ilen s.icrc) 0 cleared)) ∧
    (∀ e, parseVerdict s.ilen s.icrc = .ok →
      construct s.ibuf ⟨s.optPresent, s.optDur, s.optSched, s.optAkw, s.optTaste⟩ = .error e →
      exec .loadOpt s = .next (respond e 0 cleared)) ∧
    (∀ (g : Frame) (a : BitVec 4), parseVerdict s.ilen s.icrc = .ok →
      construct s.ibuf ⟨s.optPresent, s.optDur, s.optSched, s.optAkw, s.optTaste⟩ = .ok (g, a) →
      exec .loadOpt s = .next (respond .ok (BitVec.ofNat 32 a.toNat) { cleared with f := g, valid := true }))) ∧
  (∀ (arg : Word) (s : State), answerWord (commandWord 0x45 arg) s =
    if arg.toNat = 0 then exec .loadOpt s else .next (respond .errIllegal 0 s))

/-- R185: `LOAD_OPT` of a good input is `LOAD` followed by the mutator commands of the provided options in order
(`SET_SCHEDULE` only for a schedule strictly greater than the duration then stored and at most 1440), stopped at the first
error: the same frame, with the mask of the commands that ended `OK`, or that error and no frame. -/
def Obligations.LoadOptIsLoadThenTheMutators : Prop :=
  ∀ s : State, parseVerdict s.ilen s.icrc = .ok → ∃ s0 s1 s2 s3 s4 t : State,
    exec .load s = .next s0 ∧
    (if s.optPresent.getLsbD 0 then exec (.setDuration s.optDur) s0 = .next s1 else s1 = { s0 with status := .ignored }) ∧
    (if s.optPresent.getLsbD 1 ∧ duration s1.f < s.optSched.toNat ∧ s.optSched.toNat ≤ 1440 then
      exec (.setSchedule s.optSched) s1 = .next s2 else s2 = { s1 with status := .ignored }) ∧
    (if s.optPresent.getLsbD 2 then exec (.setAkw s.optAkw) s2 = .next s3 else s3 = { s2 with status := .ignored }) ∧
    (if s.optPresent.getLsbD 3 then exec (.setTaste s.optTaste) s3 = .next s4
      else s4 = { s3 with status := .ignored }) ∧
    exec .loadOpt s = .next t ∧
    (s1.status.isError = true → t.status = s1.status ∧ t.f = s.f ∧ t.valid = s.valid) ∧
    (s1.status.isError = false → s4.status.isError = true → t.status = s4.status ∧ t.f = s.f ∧ t.valid = s.valid) ∧
    (s1.status.isError = false → s4.status.isError = false → t.status = .ok ∧ t.f = s4.f ∧ t.valid = true ∧
      t.result.toNat = (decide (s1.status = .ok)).toNat + 2 * (decide (s2.status = .ok)).toNat +
        4 * (decide (s3.status = .ok)).toNat + 8 * (decide (s4.status = .ok)).toNat)

/-- R185: `construct` can fail only with `ERR_RANGE` or `ERR_VALIDATION`; the schedule step cannot raise `ERR_RANGE`, so
without a duration and a taste it never fails; and it never writes the trailer (R23). -/
def Obligations.ConstructFailsOnlyWithRangeOrValidation : Prop :=
  ∀ (g : Frame) (o : Options),
    (∀ e, construct g o = .error e → e = .errRange ∨ e = .errValidation) ∧
    (o.present.getLsbD 0 = false → o.present.getLsbD 3 = false → ∃ b, construct g o = .ok b) ∧
    (∀ b, construct g o = .ok b → b.1[20] = g[20] ∧ b.1[21] = g[21])

/-- R186, corner case: with no option staged, `LOAD_OPT` has the effect of `LOAD`. -/
def Obligations.LoadOptWithoutOptionsIsLoad : Prop :=
  ∀ s : State, s.Inv → s.optPresent = 0 → exec .loadOpt s = exec .load s

/-! Serialize. -/

/-- R200 and R202: `SERIALIZE` and `NOP`, for every argument of their opcodes; a second `SERIALIZE` changes nothing. -/
def Obligations.SerializeAndNopFollowTheirRules : Prop :=
  (∀ (s : State) (c : Half), c = crc16 (s.f.toList.take 20) → s.valid = true →
    exec .serialize s = .next (respond .ok (BitVec.ofNat 32 c.toNat) { s with
      f := (s.f.set 20 (BitVec.ofNat 8 (c.toNat / 256))).set 21 (BitVec.ofNat 8 (c.toNat % 256)) })) ∧
  (∀ s : State, s.valid = false → exec .serialize s = .next (respond .errNoProfile 0 s)) ∧
  (∀ s t : State, s.valid = true → exec .serialize s = .next t → exec .serialize t = .next t) ∧
  (∀ s : State, exec .nop s = .next (respond .ok 0 s)) ∧
  (∀ (arg : Word) (s : State), answerWord (commandWord 0x50 arg) s =
    if arg.toNat = 0 then exec .serialize s else .next (respond .errIllegal 0 s)) ∧
  (∀ (arg : Word) (s : State), answerWord (commandWord 0x00 arg) s =
    if arg.toNat = 0 then exec .nop s else .next (respond .errIllegal 0 s))

/-- R201, the round-trip law: serialize, stream the frame back, load: `OK`, and `F` is unchanged by the re-parse. -/
def Obligations.SerializeThenParseIsTheSameFrame : Prop :=
  ∀ s : State, s.valid = true → ∃ u t : State, exec .serialize s = .next u ∧
    execAll (Pseudo.parse u.f.toList).expand u = .next t ∧ t.status = .ok ∧ t.valid = true ∧ t.f = u.f ∧
    payload t.f = payload s.f

/-- R70, `EMIT`: from a loaded profile the host gets the checksum and then the 22 bytes of the wire frame, whose CRC is 0
and whose payload is the profile's; the observation is that of R252. -/
def Obligations.EmitGivesTheHostTheWireFrame : Prop :=
  ∀ s : State, s.valid = true → ∃ t : State,
    observe (Pseudo.emit.expand.map encode) s = some (t, ⟨.ok, (crc16 (payload s.f)).setWidth 32⟩ ::
      t.f.toList.map fun b => ⟨.ok, b.setWidth 32⟩) ∧
    crc16 t.f.toList = 0 ∧ payload t.f = payload s.f

/-! The clock-edge model. -/

/-- R67: a command offered to a ready block is accepted; until it completes, `cmd_ready` and `rsp_valid` are 0 and no
register but `rsp_valid` has changed; `CMD_LATENCY` edges later it completes with exactly the effect of one
transaction-level command, for every latency and whatever the host does meanwhile. -/
def Obligations.ClockedCommandIsOneTransaction : Prop :=
  ∀ (latency : Nat) (c : Clocked) (p : PortInputs) (ps : List PortInputs), 1 ≤ latency → c.cmdReady = true →
    c.inFlight = none → p.rstN = true → p.cmdValid = true → (∀ q ∈ ps, q.rstN = true) →
    (ps.length < latency → ∃ d, clockEdges latency (p :: ps) c = .next d ∧ d.regs = { c.regs with rspValid := false } ∧
      (outputs true d).cmdReady = false ∧ (outputs true d).rspValid = false) ∧
    (ps.length = latency → ∃ t, answerWord p.cmdWord c.regs = .next t ∧
      clockEdges latency (p :: ps) c = .next ⟨t, none, true⟩ ∧
      (outputs true ⟨t, none, true⟩).cmdReady = true ∧ (outputs true ⟨t, none, true⟩).rspValid = true)

/-- R67: a command is accepted only where `cmd_valid`, `cmd_ready` and `rst_n` are all 1; a ready block that is offered
none keeps its response stable for as long as that lasts. -/
def Obligations.ResponseIsStableUntilTheNextAcceptance : Prop :=
  ∀ (latency : Nat) (c : Clocked) (ps : List PortInputs), c.cmdReady = true → c.inFlight = none →
    (∀ q ∈ ps, q.rstN = true ∧ q.cmdValid = false) → clockEdges latency ps c = .next c

/-- R240: an edge with `rst_n = 0` puts every register at its reset value and abandons a command in flight; meanwhile
`cmd_ready` and `rsp_valid` are 0; the first edge with `rst_n = 1` makes `cmd_ready` 1, whatever the host offers. -/
def Obligations.ResetEdgeAbandonsTheCommandInFlight : Prop :=
  ∀ (latency : Nat) (c : Clocked) (p q : PortInputs), p.rstN = false → q.rstN = true →
    ∃ d e, clockEdge latency p c = .next d ∧ d.regs = { State.reset with pending := c.regs.pending } ∧
      d.inFlight = none ∧ (outputs false d).cmdReady = false ∧ (outputs false d).rspValid = false ∧
      clockEdge latency q d = .next e ∧ e.regs = d.regs ∧ e.inFlight = none ∧
      (outputs true e).cmdReady = true ∧ (outputs true e).rspValid = false

/-- R67: every clock edge keeps the invariant of the clock-edge state: never ready and busy at once, no response while
busy, and a block neither ready nor busy has just been reset; every edge answers. -/
def Obligations.EveryClockEdgeKeepsItsInvariant : Prop :=
  ∀ (latency : Nat) (p : PortInputs) (c : Clocked), 1 ≤ latency → c.Inv →
    ∃ d, clockEdge latency p c = .next d ∧ d.Inv
end

