-- ==== Sys2Proof/Laws/PerInstr.lean ====
section
/-! SUPPORT. Statements about every command as syntax, one lemma per constructor. -/

namespace Sys2Proof

/-- `OPCODE` of a word put together from an opcode and an argument (30_encoding.md R61). -/
theorem opcodeOf_commandWord (opcode : Byte) (arg : Word) : opcodeOf (commandWord opcode arg) = opcode := by
  simp only [opcodeOf, commandWord]
  ext i hi
  have h := BitVec.getLsbD_append (x := opcode) (y := arg) (i := 32 + i)
  simp [hi] at h ⊢
  exact h

/-- `ARG` of a word put together from an opcode and an argument (30_encoding.md R61). -/
theorem argOf_commandWord (opcode : Byte) (arg : Word) : argOf (commandWord opcode arg) = arg := by
  simp only [argOf, commandWord]
  ext i hi
  have h := BitVec.getLsbD_append (x := opcode) (y := arg) (i := i)
  simp [hi] at h ⊢
  exact h

end Sys2Proof

namespace Sys2Proof.Laws.WordFields

/-- The fields of a command's word are the command's opcode and argument (30_encoding.md R61). -/
def Statement (i : Instr) : Prop := opcodeOf (encode i) = i.opcode ∧ argOf (encode i) = i.arg

/-- The statement for any command: `encode` puts the two fields together. -/
theorem general (i : Instr) : Statement i := ⟨opcodeOf_commandWord _ _, argOf_commandWord _ _⟩

theorem nop : Statement .nop := general _

theorem crcClear : Statement .crcClear := general _

theorem crcFeed (b : Byte) : Statement (.crcFeed b) := general _

theorem crcRead : Statement .crcRead := general _

theorem crcCheck : Statement .crcCheck := general _

theorem inClear : Statement .inClear := general _

theorem inByte (b : Byte) : Statement (.inByte b) := general _

theorem load : Statement .load := general _

theorem getDevtype : Statement .getDevtype := general _

theorem getSubtype : Statement .getSubtype := general _

theorem getMenuIndex : Statement .getMenuIndex := general _

theorem getMenuId : Statement .getMenuId := general _

theorem getFlags : Statement .getFlags := general _

theorem getDuration : Statement .getDuration := general _

theorem getMaxTime : Statement .getMaxTime := general _

theorem getMinTime : Statement .getMinTime := general _

theorem getSchedule : Statement .getSchedule := general _

theorem getSchedEn : Statement .getSchedEn := general _

theorem getAkw : Statement .getAkw := general _

theorem getRiceId : Statement .getRiceId := general _

theorem getTaste : Statement .getTaste := general _

theorem getCaps : Statement .getCaps := general _

theorem getTrailer : Statement .getTrailer := general _

theorem readByte (k : BitVec 5) : Statement (.readByte k) := general _

theorem setDuration (n : Word) : Statement (.setDuration n) := general _

theorem setSchedule (n : Word) : Statement (.setSchedule n) := general _

theorem setSchedEn (v : Bool) : Statement (.setSchedEn v) := general _

theorem setAkw (v : Bool) : Statement (.setAkw v) := general _

theorem setRiceId (n : Word) : Statement (.setRiceId n) := general _

theorem setTaste (n : Word) : Statement (.setTaste n) := general _

theorem optClear : Statement .optClear := general _

theorem optDuration (n : Word) : Statement (.optDuration n) := general _

theorem optSchedule (n : Word) : Statement (.optSchedule n) := general _

theorem optAkw (v : Bool) : Statement (.optAkw v) := general _

theorem optTaste (n : Word) : Statement (.optTaste n) := general _

theorem loadOpt : Statement .loadOpt := general _

theorem serialize : Statement .serialize := general _

end Sys2Proof.Laws.WordFields
end

