-- ==== Sys2Proof/Laws/State.lean ====
section
/-! SUPPORT. One lemma per field per update: what each named update of the state leaves in each register. -/

namespace Sys2Proof.Machine

/-! `respond`. -/

@[simp] theorem respond_f (st : Status) (r : Word) (s : State) : (respond st r s).f = s.f := rfl

@[simp] theorem respond_valid (st : Status) (r : Word) (s : State) : (respond st r s).valid = s.valid := rfl

@[simp] theorem respond_ibuf (st : Status) (r : Word) (s : State) : (respond st r s).ibuf = s.ibuf := rfl

@[simp] theorem respond_ilen (st : Status) (r : Word) (s : State) : (respond st r s).ilen = s.ilen := rfl

@[simp] theorem respond_icrc (st : Status) (r : Word) (s : State) : (respond st r s).icrc = s.icrc := rfl

@[simp] theorem respond_crc (st : Status) (r : Word) (s : State) : (respond st r s).crc = s.crc := rfl

@[simp] theorem respond_optPresent (st : Status) (r : Word) (s : State) : (respond st r s).optPresent = s.optPresent := rfl

@[simp] theorem respond_optDur (st : Status) (r : Word) (s : State) : (respond st r s).optDur = s.optDur := rfl

@[simp] theorem respond_optSched (st : Status) (r : Word) (s : State) : (respond st r s).optSched = s.optSched := rfl

@[simp] theorem respond_optAkw (st : Status) (r : Word) (s : State) : (respond st r s).optAkw = s.optAkw := rfl

@[simp] theorem respond_optTaste (st : Status) (r : Word) (s : State) : (respond st r s).optTaste = s.optTaste := rfl

@[simp] theorem respond_status (st : Status) (r : Word) (s : State) : (respond st r s).status = st := rfl

@[simp] theorem respond_result (st : Status) (r : Word) (s : State) : (respond st r s).result = if st.isError then 0 else r := rfl

@[simp] theorem respond_errlog (st : Status) (r : Word) (s : State) : (respond st r s).errlog = s.errlog ||| errlogBit st := rfl

@[simp] theorem respond_rspValid (st : Status) (r : Word) (s : State) : (respond st r s).rspValid = true := rfl

@[simp] theorem respond_pending (st : Status) (r : Word) (s : State) : (respond st r s).pending = s.pending := rfl

/-! `raise`. -/

@[simp] theorem raise_f (e : Status) (s : State) : (raise e s).f = s.f := rfl

@[simp] theorem raise_valid (e : Status) (s : State) : (raise e s).valid = s.valid := rfl

@[simp] theorem raise_ibuf (e : Status) (s : State) : (raise e s).ibuf = s.ibuf := rfl

@[simp] theorem raise_ilen (e : Status) (s : State) : (raise e s).ilen = s.ilen := rfl

@[simp] theorem raise_icrc (e : Status) (s : State) : (raise e s).icrc = s.icrc := rfl

@[simp] theorem raise_crc (e : Status) (s : State) : (raise e s).crc = s.crc := rfl

@[simp] theorem raise_optPresent (e : Status) (s : State) : (raise e s).optPresent = s.optPresent := rfl

@[simp] theorem raise_optDur (e : Status) (s : State) : (raise e s).optDur = s.optDur := rfl

@[simp] theorem raise_optSched (e : Status) (s : State) : (raise e s).optSched = s.optSched := rfl

@[simp] theorem raise_optAkw (e : Status) (s : State) : (raise e s).optAkw = s.optAkw := rfl

@[simp] theorem raise_optTaste (e : Status) (s : State) : (raise e s).optTaste = s.optTaste := rfl

@[simp] theorem raise_status (e : Status) (s : State) : (raise e s).status = e := rfl

@[simp] theorem raise_result (e : Status) (s : State) : (raise e s).result = 0 := by
  cases e <;> rfl

@[simp] theorem raise_errlog (e : Status) (s : State) : (raise e s).errlog = s.errlog ||| errlogBit e := rfl

@[simp] theorem raise_rspValid (e : Status) (s : State) : (raise e s).rspValid = true := rfl

@[simp] theorem raise_pending (e : Status) (s : State) : (raise e s).pending = s.pending := rfl

/-! `clearStaging`. -/

@[simp] theorem clearStaging_f (s : State) : (clearStaging s).f = s.f := rfl

@[simp] theorem clearStaging_valid (s : State) : (clearStaging s).valid = s.valid := rfl

@[simp] theorem clearStaging_ibuf (s : State) : (clearStaging s).ibuf = s.ibuf := rfl

@[simp] theorem clearStaging_ilen (s : State) : (clearStaging s).ilen = 0 := rfl

@[simp] theorem clearStaging_icrc (s : State) : (clearStaging s).icrc = 0 := rfl

@[simp] theorem clearStaging_crc (s : State) : (clearStaging s).crc = s.crc := rfl

@[simp] theorem clearStaging_optPresent (s : State) : (clearStaging s).optPresent = s.optPresent := rfl

@[simp] theorem clearStaging_optDur (s : State) : (clearStaging s).optDur = s.optDur := rfl

@[simp] theorem clearStaging_optSched (s : State) : (clearStaging s).optSched = s.optSched := rfl

@[simp] theorem clearStaging_optAkw (s : State) : (clearStaging s).optAkw = s.optAkw := rfl

@[simp] theorem clearStaging_optTaste (s : State) : (clearStaging s).optTaste = s.optTaste := rfl

@[simp] theorem clearStaging_status (s : State) : (clearStaging s).status = s.status := rfl

@[simp] theorem clearStaging_result (s : State) : (clearStaging s).result = s.result := rfl

@[simp] theorem clearStaging_errlog (s : State) : (clearStaging s).errlog = s.errlog := rfl

@[simp] theorem clearStaging_rspValid (s : State) : (clearStaging s).rspValid = s.rspValid := rfl

@[simp] theorem clearStaging_pending (s : State) : (clearStaging s).pending = s.pending := rfl

/-! `pushByte`. -/

@[simp] theorem pushByte_f (b : Byte) (s : State) : (pushByte b s).f = s.f := rfl

@[simp] theorem pushByte_valid (b : Byte) (s : State) : (pushByte b s).valid = s.valid := rfl

@[simp] theorem pushByte_ilen (b : Byte) (s : State) : (pushByte b s).ilen = if s.ilen = Config.ilenMax then Config.ilenMax else s.ilen + 1 := rfl

@[simp] theorem pushByte_icrc (b : Byte) (s : State) : (pushByte b s).icrc = crcUpdate s.icrc b := rfl

@[simp] theorem pushByte_crc (b : Byte) (s : State) : (pushByte b s).crc = s.crc := rfl

@[simp] theorem pushByte_optPresent (b : Byte) (s : State) : (pushByte b s).optPresent = s.optPresent := rfl

@[simp] theorem pushByte_optDur (b : Byte) (s : State) : (pushByte b s).optDur = s.optDur := rfl

@[simp] theorem pushByte_optSched (b : Byte) (s : State) : (pushByte b s).optSched = s.optSched := rfl

@[simp] theorem pushByte_optAkw (b : Byte) (s : State) : (pushByte b s).optAkw = s.optAkw := rfl

@[simp] theorem pushByte_optTaste (b : Byte) (s : State) : (pushByte b s).optTaste = s.optTaste := rfl

@[simp] theorem pushByte_status (b : Byte) (s : State) : (pushByte b s).status = s.status := rfl

@[simp] theorem pushByte_result (b : Byte) (s : State) : (pushByte b s).result = s.result := rfl

@[simp] theorem pushByte_errlog (b : Byte) (s : State) : (pushByte b s).errlog = s.errlog := rfl

@[simp] theorem pushByte_rspValid (b : Byte) (s : State) : (pushByte b s).rspValid = s.rspValid := rfl

@[simp] theorem pushByte_pending (b : Byte) (s : State) : (pushByte b s).pending = s.pending := rfl

/-! `clearOptions`. -/

@[simp] theorem clearOptions_f (s : State) : (clearOptions s).f = s.f := rfl

@[simp] theorem clearOptions_valid (s : State) : (clearOptions s).valid = s.valid := rfl

@[simp] theorem clearOptions_ibuf (s : State) : (clearOptions s).ibuf = s.ibuf := rfl

@[simp] theorem clearOptions_ilen (s : State) : (clearOptions s).ilen = s.ilen := rfl

@[simp] theorem clearOptions_icrc (s : State) : (clearOptions s).icrc = s.icrc := rfl

@[simp] theorem clearOptions_crc (s : State) : (clearOptions s).crc = s.crc := rfl

@[simp] theorem clearOptions_optPresent (s : State) : (clearOptions s).optPresent = 0 := rfl

@[simp] theorem clearOptions_optDur (s : State) : (clearOptions s).optDur = 0 := rfl

@[simp] theorem clearOptions_optSched (s : State) : (clearOptions s).optSched = 0 := rfl

@[simp] theorem clearOptions_optAkw (s : State) : (clearOptions s).optAkw = false := rfl

@[simp] theorem clearOptions_optTaste (s : State) : (clearOptions s).optTaste = 0 := rfl

@[simp] theorem clearOptions_status (s : State) : (clearOptions s).status = s.status := rfl

@[simp] theorem clearOptions_result (s : State) : (clearOptions s).result = s.result := rfl

@[simp] theorem clearOptions_errlog (s : State) : (clearOptions s).errlog = s.errlog := rfl

@[simp] theorem clearOptions_rspValid (s : State) : (clearOptions s).rspValid = s.rspValid := rfl

@[simp] theorem clearOptions_pending (s : State) : (clearOptions s).pending = s.pending := rfl

/-! `commitFrame`. -/

@[simp] theorem commitFrame_f (g : Frame) (s : State) : (commitFrame g s).f = g := rfl

@[simp] theorem commitFrame_valid (g : Frame) (s : State) : (commitFrame g s).valid = true := rfl

@[simp] theorem commitFrame_ibuf (g : Frame) (s : State) : (commitFrame g s).ibuf = s.ibuf := rfl

@[simp] theorem commitFrame_ilen (g : Frame) (s : State) : (commitFrame g s).ilen = s.ilen := rfl

@[simp] theorem commitFrame_icrc (g : Frame) (s : State) : (commitFrame g s).icrc = s.icrc := rfl

@[simp] theorem commitFrame_crc (g : Frame) (s : State) : (commitFrame g s).crc = s.crc := rfl

@[simp] theorem commitFrame_optPresent (g : Frame) (s : State) : (commitFrame g s).optPresent = s.optPresent := rfl

@[simp] theorem commitFrame_optDur (g : Frame) (s : State) : (commitFrame g s).optDur = s.optDur := rfl

@[simp] theorem commitFrame_optSched (g : Frame) (s : State) : (commitFrame g s).optSched = s.optSched := rfl

@[simp] theorem commitFrame_optAkw (g : Frame) (s : State) : (commitFrame g s).optAkw = s.optAkw := rfl

@[simp] theorem commitFrame_optTaste (g : Frame) (s : State) : (commitFrame g s).optTaste = s.optTaste := rfl

@[simp] theorem commitFrame_status (g : Frame) (s : State) : (commitFrame g s).status = s.status := rfl

@[simp] theorem commitFrame_result (g : Frame) (s : State) : (commitFrame g s).result = s.result := rfl

@[simp] theorem commitFrame_errlog (g : Frame) (s : State) : (commitFrame g s).errlog = s.errlog := rfl

@[simp] theorem commitFrame_rspValid (g : Frame) (s : State) : (commitFrame g s).rspValid = s.rspValid := rfl

@[simp] theorem commitFrame_pending (g : Frame) (s : State) : (commitFrame g s).pending = s.pending := rfl

/-! `offer`. -/

@[simp] theorem offer_f (a : HostAction) (s : State) : (offer a s).f = s.f := rfl

@[simp] theorem offer_valid (a : HostAction) (s : State) : (offer a s).valid = s.valid := rfl

@[simp] theorem offer_ibuf (a : HostAction) (s : State) : (offer a s).ibuf = s.ibuf := rfl

@[simp] theorem offer_ilen (a : HostAction) (s : State) : (offer a s).ilen = s.ilen := rfl

@[simp] theorem offer_icrc (a : HostAction) (s : State) : (offer a s).icrc = s.icrc := rfl

@[simp] theorem offer_crc (a : HostAction) (s : State) : (offer a s).crc = s.crc := rfl

@[simp] theorem offer_optPresent (a : HostAction) (s : State) : (offer a s).optPresent = s.optPresent := rfl

@[simp] theorem offer_optDur (a : HostAction) (s : State) : (offer a s).optDur = s.optDur := rfl

@[simp] theorem offer_optSched (a : HostAction) (s : State) : (offer a s).optSched = s.optSched := rfl

@[simp] theorem offer_optAkw (a : HostAction) (s : State) : (offer a s).optAkw = s.optAkw := rfl

@[simp] theorem offer_optTaste (a : HostAction) (s : State) : (offer a s).optTaste = s.optTaste := rfl

@[simp] theorem offer_status (a : HostAction) (s : State) : (offer a s).status = s.status := rfl

@[simp] theorem offer_result (a : HostAction) (s : State) : (offer a s).result = s.result := rfl

@[simp] theorem offer_errlog (a : HostAction) (s : State) : (offer a s).errlog = s.errlog := rfl

@[simp] theorem offer_rspValid (a : HostAction) (s : State) : (offer a s).rspValid = s.rspValid := rfl

@[simp] theorem offer_pending (a : HostAction) (s : State) : (offer a s).pending = a :: s.pending := rfl

@[simp] theorem pushByte_ibuf (b : Byte) (s : State) :
    (pushByte b s).ibuf = if h : s.ilen.toNat < 22 then s.ibuf.set s.ilen.toNat b else s.ibuf := rfl

/-! `hostReset`. -/

@[simp] theorem hostReset_f (s : State) : (hostReset s).f = State.reset.f := rfl

@[simp] theorem hostReset_valid (s : State) : (hostReset s).valid = State.reset.valid := rfl

@[simp] theorem hostReset_ibuf (s : State) : (hostReset s).ibuf = State.reset.ibuf := rfl

@[simp] theorem hostReset_ilen (s : State) : (hostReset s).ilen = State.reset.ilen := rfl

@[simp] theorem hostReset_icrc (s : State) : (hostReset s).icrc = State.reset.icrc := rfl

@[simp] theorem hostReset_crc (s : State) : (hostReset s).crc = State.reset.crc := rfl

@[simp] theorem hostReset_optPresent (s : State) : (hostReset s).optPresent = State.reset.optPresent := rfl

@[simp] theorem hostReset_optDur (s : State) : (hostReset s).optDur = State.reset.optDur := rfl

@[simp] theorem hostReset_optSched (s : State) : (hostReset s).optSched = State.reset.optSched := rfl

@[simp] theorem hostReset_optAkw (s : State) : (hostReset s).optAkw = State.reset.optAkw := rfl

@[simp] theorem hostReset_optTaste (s : State) : (hostReset s).optTaste = State.reset.optTaste := rfl

@[simp] theorem hostReset_status (s : State) : (hostReset s).status = State.reset.status := rfl

@[simp] theorem hostReset_result (s : State) : (hostReset s).result = State.reset.result := rfl

@[simp] theorem hostReset_errlog (s : State) : (hostReset s).errlog = State.reset.errlog := rfl

@[simp] theorem hostReset_rspValid (s : State) : (hostReset s).rspValid = State.reset.rspValid := rfl

@[simp] theorem hostReset_pending (s : State) : (hostReset s).pending = s.pending := rfl

end Sys2Proof.Machine
end

