-- ==== Sys2Proof/Laws/Ops.lean ====
section
/-! SUPPORT. One lemma per shared operation that says everything it can do; later proofs cite these. -/

namespace Sys2Proof.Machine

/-! Statuses. -/

@[simp] theorem isError_ok : Status.ok.isError = false := rfl
@[simp] theorem isError_ignored : Status.ignored.isError = false := rfl
@[simp] theorem isError_errFormat : Status.errFormat.isError = true := rfl
@[simp] theorem isError_errIntegrity : Status.errIntegrity.isError = true := rfl
@[simp] theorem isError_errValidation : Status.errValidation.isError = true := rfl
@[simp] theorem isError_errLength : Status.errLength.isError = true := rfl
@[simp] theorem isError_errRange : Status.errRange.isError = true := rfl
@[simp] theorem isError_errNoProfile : Status.errNoProfile.isError = true := rfl
@[simp] theorem isError_errIllegal : Status.errIllegal.isError = true := rfl

@[simp] theorem errlogBit_ok : errlogBit .ok = 0 := rfl
@[simp] theorem errlogBit_ignored : errlogBit .ignored = 0 := rfl

theorem isError_iff_code (st : Status) : st.isError = true ↔ 2 ≤ st.code.toNat := by
  simp [Status.isError]

/-! The parse verdict (41_load.md R102). -/

theorem parseVerdict_cases (n r : Half) :
    (n.toNat < 5 ∧ parseVerdict n r = .errFormat) ∨
    (5 ≤ n.toNat ∧ r ≠ 0 ∧ parseVerdict n r = .errIntegrity) ∨
    (5 ≤ n.toNat ∧ r = 0 ∧ n.toNat ≠ 22 ∧ parseVerdict n r = .errLength) ∨
    (n.toNat = 22 ∧ r = 0 ∧ parseVerdict n r = .ok) := by
  by_cases h5 : n.toNat < 5
  · exact .inl ⟨h5, by simp [parseVerdict, h5]⟩
  · by_cases hr : r = 0
    · by_cases h22 : n.toNat = 22
      · exact .inr (.inr (.inr ⟨h22, hr, by simp [parseVerdict, h22, hr]⟩))
      · exact .inr (.inr (.inl ⟨by omega, hr, h22, by simp [parseVerdict, h5, h22, hr]⟩))
    · exact .inr (.inl ⟨by omega, hr, by simp_all [parseVerdict]⟩)

/-! The two shapes of a frame command. -/

/-- A frame read with a profile. -/
theorem readFrame_valid {value : Frame → Word} {s : State} (h : s.valid = true) :
    readFrame value s = .next (respond .ok (value s.f) s) := by
  simp [readFrame, h]

/-- A frame read without one. -/
theorem readFrame_invalid {value : Frame → Word} {s : State} (h : s.valid = false) :
    readFrame value s = .next (raise .errNoProfile s) := by
  simp [readFrame, h]

/-- All a frame read can do. -/
theorem readFrame_cases (value : Frame → Word) (s : State) :
    (s.valid = true ∧ readFrame value s = .next (respond .ok (value s.f) s)) ∨
    (s.valid = false ∧ readFrame value s = .next (raise .errNoProfile s)) := by
  cases h : s.valid
  · exact .inr ⟨rfl, readFrame_invalid h⟩
  · exact .inl ⟨rfl, readFrame_valid h⟩

/-- A mutator with a profile. -/
theorem mutate_valid {body : Body} {s : State} (h : s.valid = true) :
    mutate body s = .next (respond (body s.f).1 0 { s with f := (body s.f).2 }) := by
  simp [mutate, h]

/-- A mutator without one. -/
theorem mutate_invalid {body : Body} {s : State} (h : s.valid = false) :
    mutate body s = .next (raise .errNoProfile s) := by
  simp [mutate, h]

/-- All a mutator can do. -/
theorem mutate_cases (body : Body) (s : State) :
    (s.valid = true ∧ mutate body s = .next (respond (body s.f).1 0 { s with f := (body s.f).2 })) ∨
    (s.valid = false ∧ mutate body s = .next (raise .errNoProfile s)) := by
  by_cases h : s.valid = true
  · exact .inl ⟨h, mutate_valid h⟩
  · exact .inr ⟨by simpa using h, mutate_invalid (by simpa using h)⟩

@[simp] theorem gated_true {can : Frame → Bool} {body : Body} {f : Frame} (h : can f = true) :
    gated can body f = body f := by
  simp [gated, h]

@[simp] theorem gated_false {can : Frame → Bool} {body : Body} {f : Frame} (h : can f = false) :
    gated can body f = (.ignored, f) := by
  simp [gated, h]

/-- One step of `construct`: all it can do (44_construct.md R185). -/
theorem optionStep_cases (wanted : Bool) (bit : BitVec 4) (body : Body) (b : Built) :
    (wanted = false ∧ optionStep wanted bit body b = .ok b) ∨
    (wanted = true ∧ (body b.1).1.isError = true ∧ optionStep wanted bit body b = .error (body b.1).1) ∨
    (wanted = true ∧ (body b.1).1 = .ok ∧ optionStep wanted bit body b = .ok ((body b.1).2, b.2 ||| bit)) ∨
    (wanted = true ∧ (body b.1).1 = .ignored ∧ optionStep wanted bit body b = .ok ((body b.1).2, b.2)) := by
  cases wanted
  · exact .inl ⟨rfl, rfl⟩
  · cases h : (body b.1).1 <;> simp [optionStep, h]

/-! Command words and steps. -/

/-- A word is decoded from its two fields. -/
@[simp] theorem decode_commandWord (opcode : Byte) (arg : Word) :
    decode (commandWord opcode arg) = decodeFields opcode arg := by
  simp [decode, opcodeOf_commandWord, argOf_commandWord]

theorem answerWord_of_decode {w : CmdWord} {i : Instr} {s : State} (h : decode w = .ok i) :
    answerWord w s = exec i s := by
  simp [answerWord, h]

theorem answerWord_of_illegal {w : CmdWord} {e : DecodeError} {s : State} (h : decode w = .error e) :
    answerWord w s = .next (raise .errIllegal s) := by
  simp [answerWord, h, answerIllegal]

theorem step_of_waiting {s : State} (h : s.pending = []) : step s = .next s := by
  simp [step, takeNext, h]

theorem step_of_command {s : State} {w : CmdWord} {rest : List HostAction} (h : s.pending = .command w :: rest) :
    step s = answerWord w { s with pending := rest } := by
  simp [step, takeNext, takeAction, h]

theorem step_of_reset {s : State} {rest : List HostAction} (h : s.pending = .reset :: rest) :
    step s = .next { State.reset with pending := rest } := by
  simp [step, takeNext, takeAction, hostReset, h]

/-- All a step can do. -/
theorem step_cases {s t : State} (h : step s = .next t) :
    (s.pending = [] ∧ t = s) ∨
    (∃ rest, s.pending = .reset :: rest ∧ t = { State.reset with pending := rest }) ∨
    (∃ w rest, s.pending = .command w :: rest ∧ answerWord w { s with pending := rest } = .next t) := by
  match hp : s.pending with
  | [] => rw [step_of_waiting hp] at h; exact .inl ⟨rfl, by simpa using h.symm⟩
  | .reset :: rest => rw [step_of_reset hp] at h; exact .inr (.inl ⟨rest, rfl, by simpa using h.symm⟩)
  | .command w :: rest => rw [step_of_command hp] at h; exact .inr (.inr ⟨w, rest, rfl, h⟩)

@[simp] theorem andThen_next (s : State) (k : State → Answer) : andThen (.next s) k = k s := rfl

/-- A list of commands in two parts. -/
theorem execAll_append (is js : List Instr) (s : State) :
    execAll (is ++ js) s = andThen (execAll is s) (execAll js) := by
  induction is generalizing s with
  | nil => rfl
  | cons i rest ih =>
    simp only [List.cons_append, execAll]
    cases exec i s <;> simp [andThen, ih]

/-! The CRC function (40_crc.md R80). -/

@[simp] theorem crc16_nil : crc16 [] = 0 := by decide

theorem crc16_append (a b : List Byte) : crc16 (a ++ b) = b.foldl crcUpdate (crc16 a) := by
  simp [crc16]

theorem crc16_snoc (a : List Byte) (b : Byte) : crc16 (a ++ [b]) = crcUpdate (crc16 a) b := by
  simp [crc16]

end Sys2Proof.Machine
end

