-- ==== Sys2Proof/Laws/Crc.lean ====
section
/-! SUPPORT. The rounds of the CRC are linear over XOR and lose nothing (40_crc.md R81). -/

namespace Sys2Proof.Machine

/-- One round is linear. -/
theorem crcShift_xor (a b : Half) : crcShift (a ^^^ b) = crcShift a ^^^ crcShift b := by
  have cancel : ∀ x y p : Half, x ^^^ y = x ^^^ p ^^^ (y ^^^ p) := by
    intro x y p
    rw [BitVec.xor_assoc, BitVec.xor_comm y p, ← BitVec.xor_assoc p p y]
    simp
  unfold crcShift
  rw [BitVec.getLsbD_xor]
  cases a.getLsbD 15 <;> cases b.getLsbD 15 <;> simp [BitVec.shiftLeft_xor_distrib]
  · ac_rfl
  · ac_rfl
  · exact cancel _ _ _

/-- Any number of rounds is linear. -/
theorem crcRounds_xor (n : Nat) (a b : Half) : crcRounds n (a ^^^ b) = crcRounds n a ^^^ crcRounds n b := by
  induction n generalizing a b with
  | zero => rfl
  | succ n ih => simp only [crcRounds, crcShift_xor, ih]

/-- Rounds add up. -/
theorem crcRounds_add (m n : Nat) (a : Half) : crcRounds (m + n) a = crcRounds n (crcRounds m a) := by
  induction m generalizing a with
  | zero => simp [crcRounds]
  | succ m ih => rw [Nat.succ_add, crcRounds, ih, crcRounds]

/-- Rounds keep 0. -/
@[simp] theorem crcRounds_zero (n : Nat) : crcRounds n 0 = 0 := by
  induction n with
  | zero => rfl
  | succ n ih => rw [crcRounds, show crcShift 0 = 0 from by decide, ih]

/-- A round gives 0 only from 0: the polynomial has a constant term. -/
theorem eq_zero_of_crcShift {a : Half} (h : crcShift a = 0) : a = 0 := by
  unfold crcShift at h
  by_cases hb : a.getLsbD 15 = true
  · rw [if_pos hb] at h
    have := congrArg (fun x : Half => x.getLsbD 0) h
    simp [Config.crcPoly] at this
  · rw [if_neg hb] at h
    ext i hi
    by_cases h15 : i = 15
    · subst h15
      simpa using hb
    · have := congrArg (fun x : Half => x.getLsbD (i + 1)) h
      have h' : i + 1 < 16 := by omega
      simpa [h', hi] using this

/-- Rounds give 0 only from 0. -/
theorem eq_zero_of_crcRounds {n : Nat} {a : Half} (h : crcRounds n a = 0) : a = 0 := by
  induction n generalizing a with
  | zero => exact h
  | succ n ih => exact eq_zero_of_crcShift (ih h)

/-- `crc_update` is linear in the state and the byte together. -/
theorem crcUpdate_xor (c d : Half) (b e : Byte) :
    crcUpdate (c ^^^ d) (b ^^^ e) = crcUpdate c b ^^^ crcUpdate d e := by
  unfold crcUpdate
  rw [← crcRounds_xor]
  congr 1
  rw [BitVec.setWidth_xor, BitVec.shiftLeft_xor_distrib]
  ac_rfl

end Sys2Proof.Machine
end

