-- ==== Sys2Proof/Laws/Decode.lean ====
section
/-! SUPPORT. The decoder's shared operations: the argument forms as comparisons of numbers (30_encoding.md R62), and a
word put together from its own fields (R61). -/

namespace Sys2Proof

/-- A word is the word of its fields. -/
theorem commandWord_fields (w : CmdWord) : commandWord (opcodeOf w) (argOf w) = w := by
  apply BitVec.eq_of_toNat_eq
  show (BitVec.extractLsb' 32 8 w ++ BitVec.extractLsb' 0 32 w : BitVec (8 + 32)).toNat = _
  have := w.isLt
  rw [BitVec.toNat_append]
  simp only [BitVec.extractLsb'_toNat, Nat.shiftRight_eq_div_pow]
  rw [← Nat.shiftLeft_add_eq_or_of_lt (by omega), Nat.shiftLeft_eq]
  omega

/-- Form `NONE`: all it can do. -/
theorem formNone_eq (i : Instr) (arg : Word) :
    formNone i arg = if arg.toNat = 0 then .ok i else .error (.argNotZero arg) := by
  have h : arg = 0 ↔ arg.toNat = 0 := by rw [← BitVec.toNat_inj]; simp
  simp only [formNone, h]

/-- Form `BYTE`: all it can do. -/
theorem formByte_eq (mk : Byte → Instr) (arg : Word) : formByte mk arg =
    if arg.toNat < 256 then .ok (mk (BitVec.ofNat 8 arg.toNat)) else .error (.argNotByte arg) := by
  have h1 : arg.extractLsb' 8 24 = 0 ↔ arg.toNat < 256 := by
    have := arg.isLt
    rw [← BitVec.toNat_inj]
    simp [BitVec.extractLsb'_toNat, Nat.shiftRight_eq_div_pow]
    omega
  have h2 : arg.extractLsb' 0 8 = BitVec.ofNat 8 arg.toNat := by
    apply BitVec.eq_of_toNat_eq
    simp [BitVec.extractLsb'_toNat]
  simp only [formByte, h1, h2]

/-- Form `BOOL`: all it can do. -/
theorem formBool_eq (mk : Bool → Instr) (arg : Word) : formBool mk arg =
    if arg.toNat ≤ 1 then .ok (mk (decide (arg.toNat = 1))) else .error (.argNotBool arg) := by
  have h1 : arg.extractLsb' 1 31 = 0 ↔ arg.toNat ≤ 1 := by
    have := arg.isLt
    rw [← BitVec.toNat_inj]
    simp [BitVec.extractLsb'_toNat, Nat.shiftRight_eq_div_pow]
    omega
  simp only [formBool, h1]
  split
  · next h =>
    have h2 : arg.getLsbD 0 = decide (arg.toNat = 1) := by
      rw [BitVec.getLsbD, Nat.testBit_zero]
      congr 1
      apply propext
      omega
    rw [h2]
  · rfl

/-- Form `OFFSET`: all it can do. -/
theorem formOffset_eq (mk : BitVec 5 → Instr) (arg : Word) : formOffset mk arg =
    if arg.toNat < 22 then .ok (mk (BitVec.ofNat 5 arg.toNat)) else .error (.badOffset arg) := by
  have h : arg.extractLsb' 0 5 = BitVec.ofNat 5 arg.toNat := by
    apply BitVec.eq_of_toNat_eq
    simp [BitVec.extractLsb'_toNat]
  simp only [formOffset, h, Config.offsetMax, Nat.lt_succ_iff]

end Sys2Proof
end

