-- ==== Sys2Proof/Laws/Safety.lean ====
section
/-! SUPPORT. The terms of Sys2Proof/Safety.lean: what the response, the staging and the option operations do to the registers
of R36's table, and what the assembler reads of a word and of digits (30_encoding.md R69). -/

namespace Sys2Proof.Machine

/-! Registers. -/

/-- The response is no register of R36's table. -/
@[simp] theorem Reg.value_respond (r : Reg) (st : Status) (x : Word) (s : State) :
    r.value (respond st x s) = r.value s := by cases r <;> rfl

/-- `raise` likewise. -/
@[simp] theorem Reg.value_raise (r : Reg) (e : Status) (s : State) : r.value (raise e s) = r.value s :=
  r.value_respond e 0 s

/-- Clearing the staging registers. -/
@[simp] theorem Reg.value_clearStaging (r : Reg) (s : State) :
    r.value (clearStaging s) = if r = .ilen ∨ r = .icrc then 0 else r.value s := by cases r <;> rfl

/-- Clearing the option registers. -/
@[simp] theorem Reg.value_clearOptions (r : Reg) (s : State) :
    r.value (clearOptions s) = if r ∈ allOpt then 0 else r.value s := by cases r <;> rfl

/-- Equal values of every register mean equal registers, the response and the host's list apart. -/
theorem Reg.eq_of_value_eq {s t : State} (h : ∀ r : Reg, r.value s = r.value t) :
    s = { t with
      status := s.status, result := s.result, errlog := s.errlog, rspValid := s.rspValid, pending := s.pending } := by
  have hf : s.f = t.f := by
    ext k hk : 1
    exact BitVec.toNat_inj.1 (h (.f ⟨k, hk⟩))
  have hi : s.ibuf = t.ibuf := by
    ext k hk : 1
    exact BitVec.toNat_inj.1 (h (.ibuf ⟨k, hk⟩))
  have bool : ∀ a b : Bool, a.toNat = b.toNat → a = b := by decide
  have hv := bool _ _ (h .valid)
  have ha := bool _ _ (h .optAkw)
  have hn := BitVec.toNat_inj.1 (h .ilen)
  have hc := BitVec.toNat_inj.1 (h .icrc)
  have hr := BitVec.toNat_inj.1 (h .crc)
  have hp := BitVec.toNat_inj.1 (h .optPresent)
  have hd := BitVec.toNat_inj.1 (h .optDur)
  have hs := BitVec.toNat_inj.1 (h .optSched)
  have ht := BitVec.toNat_inj.1 (h .optTaste)
  cases s
  cases t
  simp_all

/-! Words of a line. -/

/-- What `isLineWord` says. -/
theorem isLineWord_iff (cs : List Char) :
    isLineWord cs = true ↔ cs ≠ [] ∧ ∀ c ∈ cs, isBlank c = false ∧ c ≠ ';' := by
  simp [isLineWord]

/-- A text without the comment sign has no comment. -/
theorem withoutComment_eq_self (cs : List Char) (h : ∀ c ∈ cs, c ≠ ';') : withoutComment cs = cs := by
  rw [withoutComment, List.takeWhile_eq_self_iff]
  simpa using h

/-- A word, then a blank. -/
theorem wordsOf_append_blank (word cs rest : List Char) (h : ∀ c ∈ cs, isBlank c = false) (hne : word ≠ [] ∨ cs ≠ []) :
    wordsOf word (cs ++ ' ' :: rest) = (word.reverse ++ cs) :: wordsOf [] rest := by
  induction cs generalizing word with
  | nil =>
    have : word ≠ [] := by simpa using hne
    simp [wordsOf, isBlank, this]
  | cons c cs ih =>
    simp only [List.mem_cons, forall_eq_or_imp] at h
    simp [wordsOf, h.1, ih (c :: word) h.2 (.inl (by simp))]

/-- A word at the end of a line. -/
theorem wordsOf_last (word cs : List Char) (h : ∀ c ∈ cs, isBlank c = false) (hne : word ≠ [] ∨ cs ≠ []) :
    wordsOf word cs = [word.reverse ++ cs] := by
  induction cs generalizing word with
  | nil =>
    have : word ≠ [] := by simpa using hne
    simp [wordsOf, this]
  | cons c cs ih =>
    simp only [List.mem_cons, forall_eq_or_imp] at h
    simp [wordsOf, h.1, ih (c :: word) h.2 (.inl (by simp))]

/-- A line of two words. -/
theorem wordsOf_two (word operand : List Char) (hw : isLineWord word = true) (ho : isLineWord operand = true) :
    wordsOf [] (withoutComment (word ++ ' ' :: operand)) = [word, operand] := by
  rw [isLineWord_iff] at hw ho
  rw [withoutComment_eq_self, wordsOf_append_blank _ _ _ (fun c hc => (hw.2 c hc).1) (.inr hw.1),
    wordsOf_last _ _ (fun c hc => (ho.2 c hc).1) (.inr ho.1)]
  · rfl
  · intro c hc
    simp only [List.mem_append, List.mem_cons] at hc
    rcases hc with h | rfl | h
    · exact (hw.2 _ h).2
    · decide
    · exact (ho.2 _ h).2

/-- A line of a mnemonic and one operand: the operand as the mnemonic's form takes it. -/
theorem assembleLine_two (word operand : List Char) (row : String × AsmForm) (hw : isLineWord word = true)
    (ho : isLineWord operand = true) (hrow : (asmTable.find? fun row => row.1.toList == word) = some row) :
    assembleLine (word ++ ' ' :: operand) = (row.2.assemble [operand]).map fun i => some (encode i) := by
  simp only [assembleLine, readLine, wordsOf_two _ _ hw ho, hrow]
  cases row.2.assemble [operand] <;> rfl

/-! Digits. -/

/-- A decimal digit reads as itself. -/
theorem decimalDigit_digitChar {d : Nat} (h : d < 10) : decimalDigit d.digitChar = some d := by
  interval_cases d <;> rfl

/-- A hexadecimal digit reads as itself. -/
theorem hexDigit_digitChar {d : Nat} (h : d < 16) : hexDigit d.digitChar = some d := by
  interval_cases d <;> rfl

/-- Digits read as the number they stand for. -/
theorem readDigits_map (base : Nat) (digit : Char → Option Nat) (acc : Nat) (digits : List Nat)
    (h : ∀ d ∈ digits, digit d.digitChar = some d) :
    readDigits base digit acc (digits.map Nat.digitChar) = some (digits.foldl (fun n d => n * base + d) acc) := by
  induction digits generalizing acc with
  | nil => rfl
  | cons d ds ih =>
    simp only [List.mem_cons, forall_eq_or_imp] at h
    simp [readDigits, h.1, ih _ h.2]

end Sys2Proof.Machine
end

