-- ==== Sys2Proof/Tests/Slice0.lean ====
section
/-! SUPPORT. The model's own tests: ill-formed terms refused, words of every constructor decoded, one step at a time from
the vectors of 95_test_vectors.md (V1 to V113), and a witness for the hypotheses of every obligation that has any. -/

open Sys2Proof Sys2Proof.Machine

namespace Sys2Proof.Tests

-- One theorem at a time: elaborated side by side they ask for more memory than a sandbox grants.
set_option Elab.async false

/-! The frames of 95_test_vectors.md part 2. -/

def frameA : Frame := #v[0x02, 0x01, 0x00, 0x00, 0x00, 0x00, 0x01, 0x60, 0x00, 0x28, 0x01, 0x00, 0x00, 0x0A, 0x00, 0x00,
  0x00, 0x00, 0x01, 0x01, 0x0E, 0x4F]

def frameB : Frame := #v[0x02, 0x01, 0x05, 0x00, 0x00, 0x00, 0x03, 0x00, 0x00, 0x1E, 0x00, 0x1E, 0x00, 0x1E, 0x00, 0x00,
  0x00, 0x00, 0x00, 0x00, 0x1B, 0x71]

def frameC : Frame := #v[0x02, 0x01, 0x01, 0x00, 0x00, 0x00, 0x02, 0x40, 0x00, 0x3C, 0x02, 0x00, 0x00, 0x1E, 0x00, 0x80,
  0x00, 0x12, 0x34, 0x00, 0xF8, 0x2F]

def frameD : Frame := #v[0x01, 0x02, 0x03, 0x00, 0x00, 0x00, 0x10, 0xFF, 0x01, 0x4B, 0x05, 0x00, 0x00, 0x00, 0xFF, 0xFF,
  0xAA, 0xAB, 0xCD, 0x07, 0xC4, 0x3C]

def frameE : Frame := #v[0x02, 0x01, 0x00, 0x00, 0x00, 0x00, 0x01, 0x60, 0x00, 0x00, 0xFF, 0x3C, 0x00, 0x00, 0x00, 0x00,
  0x00, 0x00, 0x00, 0x00, 0x95, 0xB6]

/-- "Loaded X": what streaming X and `LOAD` leave. -/
def loaded (f : Frame) : State := { State.reset with f := f, valid := true, ibuf := f, rspValid := true }

/-- The bytes of X staged and not yet loaded, over a loaded A. -/
def staged (f : Frame) : State := { loaded frameA with ibuf := f, ilen := 22, icrc := 0 }

/-- The state an answer gives. -/
def answered (a : Answer) : State :=
  match a with
  | .next t => t
  | .fault _ => State.reset
  | .refused _ => State.reset

/-- The state after the host offers one word. -/
def after (s : State) (w : Nat) : State := answered (step (s.withFetchWord 40 w))

/-- The response after the host offers one word: the code of the status, and the result. -/
def reply (s : State) (w : Nat) : Nat × Nat := ((after s w).status.code.toNat, (after s w).result.toNat)

/-- The two bytes at offset `k`. -/
def pair (k : Nat) (s : State) : Nat × Nat := ((s.f.toList.getD k 0).toNat, (s.f.toList.getD (k + 1) 0).toNat)

/-! WellFormed: the one form a term can break (R62, R145). -/

theorem test_wellFormed_refuses_offset_22 : (Instr.readByte 22).wellFormed = false := by decide
theorem test_wellFormed_refuses_offset_31 : (Instr.readByte 31).wellFormed = false := by decide
theorem test_wellFormed_accepts_offset_21 : (Instr.readByte 21).wellFormed = true := by decide

/-! Decode: words written out from R61 and R63, every constructor. -/

theorem test_decode_crc_family :
    decodeTableWord 40 0x0000000000 = some .nop ∧ decodeTableWord 40 0x0100000000 = some .crcClear ∧
    decodeTableWord 40 0x0200000031 = some (.crcFeed 0x31) ∧ decodeTableWord 40 0x0300000000 = some .crcRead ∧
    decodeTableWord 40 0x0400000000 = some .crcCheck := by decide

theorem test_decode_input_family :
    decodeTableWord 40 0x1000000000 = some .inClear ∧ decodeTableWord 40 0x11000000FF = some (.inByte 0xFF) ∧
    decodeTableWord 40 0x1200000000 = some .load := by decide

theorem test_decode_get_field_low :
    decodeTableWord 40 0x2000000000 = some .getDevtype ∧ decodeTableWord 40 0x2000000001 = some .getSubtype ∧
    decodeTableWord 40 0x2000000002 = some .getMenuIndex ∧ decodeTableWord 40 0x2000000003 = some .getMenuId ∧
    decodeTableWord 40 0x2000000004 = some .getFlags ∧ decodeTableWord 40 0x2000000005 = some .getDuration ∧
    decodeTableWord 40 0x2000000006 = some .getMaxTime ∧ decodeTableWord 40 0x2000000007 = some .getMinTime := by decide

theorem test_decode_get_field_high :
    decodeTableWord 40 0x2000000008 = some .getSchedule ∧ decodeTableWord 40 0x2000000009 = some .getSchedEn ∧
    decodeTableWord 40 0x200000000A = some .getAkw ∧ decodeTableWord 40 0x200000000B = some .getRiceId ∧
    decodeTableWord 40 0x200000000C = some .getTaste ∧ decodeTableWord 40 0x200000000D = some .getCaps ∧
    decodeTableWord 40 0x200000000E = some .getTrailer ∧ decodeTableWord 40 0x2100000015 = some (.readByte 21) := by decide

theorem test_decode_mutators :
    decodeTableWord 40 0x3000003C00 = some (.setDuration 15360) ∧
    decodeTableWord 40 0x310000005A = some (.setSchedule 90) ∧
    decodeTableWord 40 0x3200000001 = some (.setSchedEn true) ∧ decodeTableWord 40 0x3300000000 = some (.setAkw false) ∧
    decodeTableWord 40 0x3400012345 = some (.setRiceId 0x12345) ∧
    decodeTableWord 40 0x3500000002 = some (.setTaste 2) := by decide

theorem test_decode_options_and_serialize :
    decodeTableWord 40 0x4000000000 = some .optClear ∧ decodeTableWord 40 0x410000001E = some (.optDuration 30) ∧
    decodeTableWord 40 0x4200000078 = some (.optSchedule 120) ∧ decodeTableWord 40 0x4300000001 = some (.optAkw true) ∧
    decodeTableWord 40 0x44FFFFFFFF = some (.optTaste 0xFFFFFFFF) ∧ decodeTableWord 40 0x4500000000 = some .loadOpt ∧
    decodeTableWord 40 0x5000000000 = some .serialize := by decide

/-- V17, V29g, V37, V83, V111, V112: words no row has. -/
theorem test_decode_refuses :
    decode 0x0500000000 = .error (.badOpcode 0x05) ∧ decode 0xFF00000000 = .error (.badOpcode 0xFF) ∧
    decode 0x0000000001 = .error (.argNotZero 1) ∧ decode 0x0200000100 = .error (.argNotByte 0x100) ∧
    decode 0x3200000002 = .error (.argNotBool 2) ∧ decode 0x200000000F = .error (.badFieldId 15) ∧
    decode 0x2100000016 = .error (.badOffset 22) := by decide

/-! The assembler (R69; the words are those of 95_test_vectors.md). -/

theorem test_assemble_operands :
    assembleLine "SET_DURATION 90".toList = .ok (some 0x300000005A) ∧
    assembleLine "CRC_FEED 0x41 ; feed".toList = .ok (some 0x0200000041) ∧
    assembleLine "OPT_AKW true".toList = .ok (some 0x4300000001) ∧
    assembleLine "GET_FIELD.CAPS".toList = .ok (some 0x200000000D) := by decide

theorem test_assemble_refuses :
    assembleLine "CRC_FEED 256".toList = .error .badOperand ∧ assembleLine "READ_BYTE 22".toList = .error .badOperand ∧
    assembleLine "NOP 1".toList = .error .extraOperand ∧ assembleLine "FOO".toList = .error .unknownMnemonic := by decide

/-! Reset, and the host's list. -/

theorem test_reset_action : answered (step { loaded frameD with pending := [.reset] }) = State.reset := by decide

theorem test_idle_step : answered (step (loaded frameA)) = loaded frameA := by decide

/-- V57: `NOP` after an error shows `OK` and keeps the sticky bit. -/
theorem test_nop : reply (after State.reset 0x1200000000) 0x0000000000 = (0, 0) ∧
    (after (after State.reset 0x1200000000) 0x0000000000).errlog = 0x0004 := by decide

/-! The Checksum Engine. -/

/-- V1, V5, V7, V11. -/
theorem test_crc16 : crc16 [0x31, 0x32, 0x33, 0x34, 0x35, 0x36, 0x37, 0x38, 0x39] = 0x31C3 ∧ crc16 [0x01] = 0x1021 ∧
    crc16 [0x80] = 0x9188 ∧ crc16 [0x41] = 0x58E5 := by decide +kernel

/-- Part 2: the trailer of frame D, by R80. -/
theorem test_crc16_frame : crc16 (payload frameD) = 0xC43C := by decide +kernel

/-- V13. -/
theorem test_crcFeed : (after { State.reset with crc := 0x31C3 } 0x0200000031).crc = 0xC300 ∧
    (after { State.reset with crc := 0xC300 } 0x02000000C3).crc = 0x0000 := by decide

theorem test_crcClear : (after { State.reset with crc := 0x31C3, icrc := 5 } 0x0100000000).crc = 0 ∧
    (after { State.reset with crc := 0x31C3, icrc := 5 } 0x0100000000).icrc = 5 := by decide

theorem test_crcRead : reply { State.reset with crc := 0x31C3 } 0x0300000000 = (0, 0x31C3) := by decide

/-- V16 and program P1, command 19. -/
theorem test_crcCheck : reply State.reset 0x0400000000 = (0, 1) ∧
    reply { State.reset with crc := 0x1021 } 0x0400000000 = (0, 0) := by decide

/-- V17. -/
theorem test_illegal_crc_words : reply State.reset 0x0200000100 = (8, 0) ∧
    (after State.reset 0x0100000001).errlog = 0x0100 := by decide

/-! Input and parse. -/

/-- V29c. -/
theorem test_inByte : (after (after State.reset 0x1100000002) 0x1100000001).icrc = 0x7643 ∧
    (after (after State.reset 0x1100000002) 0x1100000001).ilen = 2 ∧
    (after (after State.reset 0x1100000002) 0x1100000001).ibuf.toList.take 2 = [0x02, 0x01] := by decide +kernel

/-- R25, R101: the length saturates, and a byte past the 22nd is not stored. -/
theorem test_inByte_saturates : (after { staged frameA with ilen := 0xFFFF } 0x1100000001).ilen = 0xFFFF ∧
    (after { staged frameA with ilen := 0xFFFF } 0x1100000001).ibuf = frameA := by decide

/-- V29h. -/
theorem test_inClear : (after (staged frameC) 0x1000000000).ilen = 0 ∧
    (after (staged frameC) 0x1000000000).ibuf = frameC := by decide

/-- V26 and V29d. -/
theorem test_load : (after (staged frameC) 0x1200000000).f = frameC ∧
    (after { staged frameC with icrc := 0x1021 } 0x1200000000).f = frameA := by decide

/-- V20, V22, V23, V29. -/
theorem test_load_verdicts : reply State.reset 0x1200000000 = (2, 0) ∧
    reply { State.reset with ilen := 5 } 0x1200000000 = (5, 0) ∧
    reply { State.reset with ilen := 5, icrc := 0x6131 } 0x1200000000 = (3, 0) ∧
    reply { staged frameA with ilen := 23 } 0x1200000000 = (5, 0) := by decide

/-! The extractor: V30 to V38. -/

theorem test_getDevtype : reply (loaded frameD) 0x2000000000 = (0, 0x1) := by decide
theorem test_getSubtype : reply (loaded frameD) 0x2000000001 = (0, 0x2) := by decide
theorem test_getMenuIndex : reply (loaded frameD) 0x2000000002 = (0, 0x3) := by decide
theorem test_getMenuId : reply (loaded frameD) 0x2000000003 = (0, 0x10) := by decide
theorem test_getFlags : reply (loaded frameD) 0x2000000004 = (0, 0xFF) := by decide
theorem test_getDuration : reply (loaded frameD) 0x2000000005 = (0, 135) := by decide
theorem test_getMaxTime : reply (loaded frameD) 0x2000000006 = (0, 300) := by decide
theorem test_getMinTime : reply (loaded frameC) 0x2000000007 = (0, 30) := by decide
theorem test_getSchedule : reply (loaded frameD) 0x2000000008 = (0, 7747) := by decide
theorem test_getSchedEn : reply (loaded frameD) 0x2000000009 = (0, 1) ∧
    reply (loaded frameC) 0x2000000009 = (0, 0) := by decide
theorem test_getAkw : reply (loaded frameC) 0x200000000A = (0, 1) ∧ reply (loaded frameA) 0x200000000A = (0, 0) := by decide
theorem test_getRiceId : reply (loaded frameC) 0x200000000B = (0, 0x1234) := by decide
theorem test_getTaste : reply (loaded frameD) 0x200000000C = (0, 7) := by decide
theorem test_getCaps : reply (loaded frameA) 0x200000000D = (0, 0x1F) ∧ reply (loaded frameC) 0x200000000D = (0, 0x0D) ∧
    reply (loaded frameD) 0x200000000D = (0, 0x07) ∧ reply (loaded frameB) 0x200000000D = (0, 0x00) := by decide
theorem test_getTrailer : reply (loaded frameC) 0x200000000E = (0, 0xF82F) := by decide
theorem test_readByte : reply (loaded frameD) 0x2100000010 = (0, 0xAA) ∧ reply (loaded frameC) 0x2100000015 = (0, 0x2F) ∧
    reply (loaded frameC) 0x2100000016 = (8, 0) := by decide
theorem test_no_profile : reply State.reset 0x2000000000 = (7, 0) ∧ (after State.reset 0x2100000000).errlog = 0x0080 ∧
    reply State.reset 0x200000000F = (8, 0) := by decide

/-! The mutators: V60 to V110. -/

/-- V60, V61, V66. -/
theorem test_setDuration : pair 8 (after (loaded frameA) 0x3000000005) = (0x00, 0x0A) ∧
    pair 8 (after (loaded frameA) 0x300000005A) = (0x01, 0x00) ∧
    pair 8 (after (loaded frameA) 0x300000003B) = (0x00, 0x3B) := by decide

/-- V68, V71, V72. -/
theorem test_setDuration_edges : reply (loaded frameB) 0x300000002D = (1, 0) ∧
    pair 8 (after (loaded frameE) 0x3000003BFF) = (0xFF, 0x3B) ∧ reply (loaded frameE) 0x3000003C00 = (6, 0) ∧
    (after (loaded frameE) 0x3000003C00).errlog = 0x0040 := by decide

/-- V75, V75e. -/
theorem test_setSchedule : pair 14 (after (loaded frameC) 0x310000005A) = (0x81, 0x9E) ∧
    pair 14 (after (loaded frameA) 0x310000003D) = (0x81, 0x01) := by decide

/-- V75b, V75c, V76. -/
theorem test_setSchedule_edges : pair 14 (after (loaded frameC) 0x3100001DFF) = (0xFF, 0xBB) ∧
    reply (loaded frameC) 0x3100001E00 = (6, 0) ∧ reply (loaded frameB) 0x310000005A = (1, 0) := by decide

/-- V81, and V108's last line. -/
theorem test_setSchedEn : pair 14 (after (loaded frameB) 0x3200000001) = (0x80, 0x00) ∧
    pair 14 (after (after (loaded frameC) 0x310000005A) 0x3200000000) = (0x01, 0x9E) := by decide

/-- V84, V85, V108. -/
theorem test_setAkw : pair 14 (after (loaded frameA) 0x3300000001) = (0x00, 0x80) ∧
    reply (loaded frameC) 0x3300000000 = (1, 0) ∧
    pair 14 (after (after (loaded frameA) 0x310000003D) 0x3300000001) = (0x81, 0x81) := by decide

/-- V90a to V90d, V90g. -/
theorem test_setRiceId : pair 17 (after (loaded frameC) 0x3400000102) = (0x01, 0x02) ∧
    pair 17 (after (loaded frameC) 0x340000FFFF) = (0xFF, 0xFF) ∧
    pair 17 (after (loaded frameC) 0x3400012345) = (0x00, 0x00) ∧ reply (loaded frameB) 0x3400000007 = (1, 0) := by decide

/-- V100, V103, V104, V106, V107. -/
theorem test_setTaste : reply (loaded frameA) 0x3500000003 = (4, 0) ∧ (after (loaded frameA) 0x3500000002).f[19] = 2 ∧
    reply (loaded frameA) 0x3500000100 = (4, 0) ∧ reply (loaded frameB) 0x3500000003 = (4, 0) ∧
    reply (loaded frameC) 0x3500000002 = (1, 0) := by decide

/-- V109. -/
theorem test_mutators_without_profile : reply State.reset 0x3500000003 = (7, 0) ∧ reply State.reset 0x3300000002 = (8, 0) ∧
    reply State.reset 0x3200000001 = (7, 0) := by decide

/-! Construction and serialize. -/

/-- V49i. -/
theorem test_optDuration : (after State.reset 0x410000001E).optDur = 30 ∧
    (after State.reset 0x410000001E).optPresent = 0x1 := by decide
theorem test_optSchedule : (after State.reset 0x4200000078).optSched = 120 ∧
    (after State.reset 0x4200000078).optPresent = 0x2 := by decide
theorem test_optAkw : (after State.reset 0x4300000001).optAkw = true ∧ (after State.reset 0x4300000001).optPresent = 0x4 ∧
    (after State.reset 0x4300000002).optPresent = 0x0 := by decide
theorem test_optTaste : (after State.reset 0x4400000002).optTaste = 2 ∧
    (after State.reset 0x4400000002).optPresent = 0x8 := by decide
theorem test_optClear : (after { State.reset with optPresent := 0xF, optDur := 30 } 0x4000000000).optPresent = 0 ∧
    (after { State.reset with optPresent := 0xF, optDur := 30 } 0x4000000000).optDur = 0 := by decide

/-- Frame A staged with V40's options: duration 30, schedule 120, auto-keep-warm 1, taste 2. -/
def optioned : State :=
  { staged frameA with optPresent := 0xF, optDur := 30, optSched := 120, optAkw := true, optTaste := 2 }

/-- V40. -/
theorem test_loadOpt : reply optioned 0x4500000000 = (0, 0xF) ∧ (after optioned 0x4500000000).f.toList =
    [0x02, 0x01, 0x00, 0x00, 0x00, 0x00, 0x01, 0x60, 0x00, 0x1E, 0x01, 0x00, 0x00, 0x0A, 0x82, 0x80, 0x00, 0x00, 0x01,
      0x02, 0x0E, 0x4F] := by decide

/-- V42 and V113: a schedule equal to the duration is not applied; a taste above 2 is an error and commits nothing. -/
theorem test_loadOpt_edges : reply { staged frameA with optPresent := 2, optSched := 40 } 0x4500000000 = (0, 0) ∧
    reply { staged frameC with optPresent := 8, optTaste := 3 } 0x4500000000 = (4, 0) ∧
    (after { staged frameC with optPresent := 8, optTaste := 3 } 0x4500000000).f = frameA ∧
    (after { staged frameC with optPresent := 8, optTaste := 3 } 0x4500000000).optPresent = 0 := by decide

/-- V52. -/
theorem test_serialize : reply (after (loaded frameA) 0x3500000002) 0x5000000000 = (0, 0x3E2C) ∧
    pair 20 (after (after (loaded frameA) 0x3500000002) 0x5000000000) = (0x3E, 0x2C) ∧
    reply State.reset 0x5000000000 = (7, 0) := by decide +kernel

/-! The clock-edge model (R67, R240): with `CMD_LATENCY = 1` a command accepted at one edge completes at the next. -/

def idleEdge : PortInputs := ⟨true, false, 0⟩

def offerEdge (w : CmdWord) : PortInputs := ⟨true, true, w⟩

def resetEdgeInputs : PortInputs := ⟨false, true, 0x0000000000⟩

def ready (s : State) : Clocked := ⟨s, none, true⟩

theorem test_clocked_latency_one : clockEdges 1 [offerEdge 0x200000000D, idleEdge] (ready (loaded frameA)) =
    .next (ready (after (loaded frameA) 0x200000000D)) := by rfl

theorem test_clocked_reset_abandons : clockEdges 3 [offerEdge 0x5000000000, resetEdgeInputs, idleEdge]
    (ready (loaded frameA)) = .next (ready State.reset) := by rfl

/-! Witnesses: for every obligation with hypotheses, a concrete state and operands that meet them, clause by clause at
the edges of each range. `witness_<Obligation>` names the obligation. -/

/-- A state in the middle of things: A loaded, one byte of it staged again, one option staged, an error shown. -/
def midway : State :=
  { loaded frameA with
    ilen := 1, icrc := 0x2042, optPresent := 0b0001, optDur := 30, errlog := 0x0010, status := .errValidation }

theorem midway_meets_the_invariant : midway.Inv :=
  ⟨by decide, by decide, by decide, by decide, by decide, by decide⟩

/-- A staged whole, nothing else pending, as streaming leaves it. -/
theorem staged_meets_the_invariant : (staged frameA).Inv :=
  ⟨by decide, by decide, by decide, by decide +kernel, by decide, by decide⟩

theorem loaded_meets_the_invariant : (loaded frameC).Inv :=
  ⟨by decide, by decide, by decide, by decide, by decide, by decide⟩

theorem witness_ResetPutsEveryRegisterAtItsResetValue :
    { loaded frameD with pending := [.reset, .command 0] }.pending = .reset :: [.command 0] := rfl

theorem witness_EveryStepKeepsInvariant :
    State.Inv { midway with pending := [.command 0x1100000001] } ∧
    step { midway with pending := [.command 0x1100000001] } =
      .next (answered (step { midway with pending := [.command 0x1100000001] })) :=
  ⟨⟨by decide, by decide, by decide, by decide, by decide, by decide⟩, rfl⟩

theorem witness_StepRunsTheDecodedCommand :
    { midway with pending := [.command 0x2100000015, .reset] }.pending = .command 0x2100000015 :: [.reset] ∧
    decode 0x2100000015 = .ok (.readByte 21) ∧ midway.pending = [] ∧ (Instr.readByte 21).wellFormed = true := by decide

theorem witness_RunIsTheLeftFoldOfTheCommands :
    { midway with pending := [.command 0x1200000000, .command 0x0500000000] }.pending =
      [0x1200000000, 0x0500000000].map .command := rfl

theorem witness_DecodeOfEncodeIsTheCommand :
    (Instr.readByte 21).wellFormed = true ∧ (Instr.setDuration 0xFFFFFFFF).wellFormed = true := by decide

theorem witness_EncodeOfDecodeIsTheWord :
    decode 0x2100000015 = .ok (.readByte 21) ∧ decode 0x35FFFFFFFF = .ok (.setTaste 0xFFFFFFFF) := by decide

/-- Both ends of every range of R64 (a), and the least argument each form refuses. -/
theorem witness_IllegalWordsAreAnsweredErrIllegal :
    (∀ o ∈ [0x05, 0x0F, 0x13, 0x1F, 0x22, 0x2F, 0x36, 0x3F, 0x46, 0x4F, 0x51, 0xFF], illegalWord o 0) ∧
    (∀ o ∈ [0x00, 0x01, 0x03, 0x04, 0x10, 0x12, 0x40, 0x45, 0x50], illegalWord o 1 ∧ ¬ illegalWord o 0) ∧
    (∀ o ∈ [0x02, 0x11], illegalWord o 256 ∧ ¬ illegalWord o 255) ∧
    (∀ o ∈ [0x32, 0x33, 0x43], illegalWord o 2 ∧ ¬ illegalWord o 1) ∧
    illegalWord 0x20 15 ∧ ¬ illegalWord 0x20 14 ∧ illegalWord 0x21 22 ∧ ¬ illegalWord 0x21 21 :=
  ⟨by decide, by decide, by decide, by decide, by decide, by decide, by decide, by decide⟩

theorem witness_LegalWordsAreTheRowsOfTheTable :
    decode 0x2100000015 = .ok (.readByte 21) ∧
    0x2100000015#40 &&& (Instr.readByte 0).tableRow.mask = (Instr.readByte 0).tableRow.pattern ∧
    (argOf 0x2100000015).toNat ≤ 21 ∧
    0x3000003C00#40 &&& (Instr.setDuration 0).tableRow.mask = (Instr.setDuration 0).tableRow.pattern ∧
    (Instr.setDuration 0).opcode ≠ 0x21 := by decide

/-- The greatest and the least refused number of a form in each base, a `BOOL` word, an operand too many, no mnemonic. -/
theorem witness_AssemblerAssemblesEveryCommand :
    (Instr.readByte 21).wellFormed = true ∧
    (numericOperands.map (·.mnemonic) = ["CRC_FEED", "IN_BYTE", "READ_BYTE", "SET_DURATION", "SET_SCHEDULE", "SET_RICE_ID",
      "SET_TASTE", "OPT_DURATION", "OPT_SCHEDULE", "OPT_TASTE"]) ∧
    ((∀ d ∈ [2, 5, 5], d < 10) ∧ digitsValue 10 [2, 5, 5] < 2 ^ 8 ∧ ¬ digitsValue 10 [2, 5, 6] < 2 ^ 8) ∧
    ((∀ d ∈ [15, 15], d < 16) ∧ digitsValue 16 [15, 15] < 2 ^ 8 ∧ ¬ digitsValue 16 [1, 0, 0] < 2 ^ 8) ∧
    (isLineWord "true".toList = true ∧ isLineWord "2".toList = true) ∧
    (operandText .getCaps = [] ∧ isLineWord "13".toList = true) ∧ isLineWord "nop".toList = true ∧
    ∀ i : Instr, "nop".toList ≠ (mnemonicOf i).toList :=
  ⟨by decide, by decide, by decide, by decide, by decide, by decide, by decide, by intro i; cases i <;> simp [mnemonicOf]⟩

/-- Decimal operands up to the bound of each form, `false`, and an operand of `GET_FIELD` (R69, R62). -/
theorem test_assemble_spellings :
    assembleLine "CRC_FEED 255".toList = .ok (some 0x02000000FF) ∧
    assembleLine "READ_BYTE 21".toList = .ok (some 0x2100000015) ∧
    assembleLine "SET_AKW false".toList = .ok (some 0x3300000000) ∧
    assembleLine "SET_AKW 2".toList = .error .badOperand ∧
    assembleLine "GET_FIELD.CAPS 13".toList = .error .extraOperand := by decide

/-- First and last bit of the payload, and a frame whose CRC is good. -/
theorem witness_CrcSingleBitSensitivity :
    (0 < [0x41#8].length ∧ 7 < 8) ∧ (0 < 20 ∧ 19 < 20 ∧ 0 < 8) ∧ crc16 frameA.toList = 0 := by decide +kernel

theorem witness_CrcIsLinear : (payload frameA).length = (payload frameC).length := by decide

theorem witness_RespondWritesOnlyTheResponse : 0 < 16 ∧ 15 < 16 := by decide

theorem witness_ErrlogIsStickyAndUnread :
    exec (.setTaste 3) midway = .next (answered (exec (.setTaste 3) midway)) ∧
    answerWord 0x3500000003 midway = .next (answered (answerWord 0x3500000003 midway)) ∧
    midway.errlog.getLsbD 4 = true ∧ midway.errlog &&& 0xFE03 = 0 := ⟨rfl, rfl, by decide, by decide⟩

/-- An illegal word, and an error of a command, of `LOAD`, of `LOAD_OPT`, and of a command without a profile. -/
theorem witness_ErrorsLeaveTheRestAlone :
    (answerWord 0x4500000001 midway = .next (answered (answerWord 0x4500000001 midway)) ∧
      (answered (answerWord 0x4500000001 midway)).status = .errIllegal) ∧
    (exec (.setTaste 3) midway = .next (answered (exec (.setTaste 3) midway)) ∧
      2 ≤ (answered (exec (.setTaste 3) midway)).status.code.toNat) ∧
    (exec .load midway = .next (answered (exec .load midway)) ∧
      2 ≤ (answered (exec .load midway)).status.code.toNat) ∧
    (exec .loadOpt midway = .next (answered (exec .loadOpt midway)) ∧
      2 ≤ (answered (exec .loadOpt midway)).status.code.toNat) ∧
    (exec .serialize State.reset = .next (answered (exec .serialize State.reset)) ∧
      (answered (exec .serialize State.reset)).status = .errNoProfile) ∧
    (exec (.readByte 22) midway = .next (answered (exec (.readByte 22) midway)) ∧
      (answered (exec (.readByte 22) midway)).status = .errIllegal) :=
  ⟨⟨rfl, by decide⟩, ⟨rfl, by decide⟩, ⟨rfl, by decide⟩, ⟨rfl, by decide⟩, ⟨rfl, by decide⟩, ⟨rfl, by decide⟩⟩

theorem witness_EveryCommandReportsAStatusOfItsRow :
    exec .loadOpt optioned = .next (answered (exec .loadOpt optioned)) := rfl

/-- Lengths 4, 5, 21, 22 and 23, with a CRC of 0 and not. -/
theorem witness_LoadFollowsTheParseVerdict :
    { staged frameA with ilen := 4 }.ilen.toNat < 5 ∧
    (5 ≤ { staged frameA with ilen := 5, icrc := 1 }.ilen.toNat ∧
      { staged frameA with ilen := 5, icrc := 1 }.icrc ≠ 0) ∧
    (5 ≤ { staged frameA with ilen := 5 }.ilen.toNat ∧ { staged frameA with ilen := 5 }.icrc = 0 ∧
      { staged frameA with ilen := 5 }.ilen.toNat ≠ 22) ∧
    ({ staged frameA with ilen := 21 }.ilen.toNat ≠ 22 ∧ { staged frameA with ilen := 23 }.ilen.toNat ≠ 22) ∧
    ((staged frameA).ilen.toNat = 22 ∧ (staged frameA).icrc = 0) := by decide

/-- The two outcomes of R105 that have a premise: a good frame and a short one. -/
theorem witness_ParseOutcomeByLengthAndCrc :
    (crc16 frameA.toList = 0 ∧ frameA.toList.length = 22) ∧ (frameA.toList.take 4).length ≤ 4 := by decide +kernel

theorem witness_TrailerHoldsAfterLoadAndSerialize :
    (exec .load (staged frameA) = .next (answered (exec .load (staged frameA))) ∧
      (answered (exec .load (staged frameA))).status = .ok) ∧
    (exec .loadOpt (staged frameA) = .next (answered (exec .loadOpt (staged frameA))) ∧
      (answered (exec .loadOpt (staged frameA))).status = .ok ∧
      (answered (exec .loadOpt (staged frameA))).result = 0) ∧
    (exec .serialize (loaded frameC) = .next (answered (exec .serialize (loaded frameC))) ∧
      (answered (exec .serialize (loaded frameC))).status = .ok) :=
  ⟨⟨rfl, by decide⟩, ⟨rfl, by decide, by decide⟩, ⟨rfl, by decide⟩⟩

theorem witness_GetFieldReturnsTheStoredFields : (loaded frameD).valid = true := rfl

theorem witness_GetFieldReturnsTheComputedFields : (loaded frameD).valid = true := rfl

theorem witness_GetFieldChecksInOrder :
    14 < (15#32).toNat ∧ ((14#32).toNat ≤ 14 ∧ State.reset.valid = false) ∧
    ((14#32).toNat ≤ 14 ∧ (loaded frameA).valid = true) := by decide

theorem witness_ReadByteFollowsItsRule :
    ((21#5).toNat < 22 ∧ (0#5).toNat < 22 ∧ (loaded frameA).valid = true) ∧
    ((21#32).toNat < 22 ∧ ¬ (22#32).toNat < 22) := by decide

theorem witness_ClampAndSplitComputeTheirFunctions : 10 ≤ 60 ∧ 30 ≤ 30 := by decide

/-- B has equal bounds; E reaches 255 hours at 15359 and 256 at 15360 (V68, V71, V72). -/
theorem witness_SetDurationFollowsItsRule :
    State.reset.valid = false ∧
    ((loaded frameB).valid = true ∧
      (30 = (loaded frameB).f[12].toNat * 60 + (loaded frameB).f[13].toNat) ∧
      (30 = (loaded frameB).f[10].toNat * 60 + (loaded frameB).f[11].toNat) ∧
      30 = max 30 (min (45#32).toNat 30) ∧ 30 ≤ 30) ∧
    ((loaded frameE).valid = true ∧
      (0 = (loaded frameE).f[12].toNat * 60 + (loaded frameE).f[13].toNat) ∧
      (15360 = (loaded frameE).f[10].toNat * 60 + (loaded frameE).f[11].toNat) ∧ 0 < 15360 ∧
      (15359 = max 0 (min (15359#32).toNat 15360) ∧ 15359 / 60 ≤ 255) ∧
      (15360 = max 0 (min (15360#32).toNat 15360) ∧ 255 < 15360 / 60)) := by decide

theorem witness_SetScheduleFollowsItsRule :
    State.reset.valid = false ∧ ((loaded frameB).valid = true ∧ canSchedule (loaded frameB).f = false) ∧
    ((loaded frameC).valid = true ∧ canSchedule (loaded frameC).f = true ∧ (7679#32).toNat < 7680 ∧
      7680 ≤ (7680#32).toNat) := by decide

theorem witness_SetSchedEnAndSetAkwFollowTheirRules :
    State.reset.valid = false ∧ ((loaded frameC).valid = true ∧ canAkw (loaded frameC).f = false) ∧
    ((loaded frameA).valid = true ∧ canAkw (loaded frameA).f = true) := by decide

theorem witness_SetRiceIdFollowsItsRule :
    State.reset.valid = false ∧ ((loaded frameB).valid = true ∧ canChooseRice (loaded frameB).f = false) ∧
    ((loaded frameC).valid = true ∧ canChooseRice (loaded frameC).f = true ∧ (0xFFFF#32).toNat ≤ 0xFFFF ∧
      0xFFFF < (0x10000#32).toNat) := by decide

theorem witness_SetTasteFollowsItsRule :
    State.reset.valid = false ∧ ((loaded frameB).valid = true ∧ 2 < (3#32).toNat) ∧
    ((loaded frameC).valid = true ∧ (2#32).toNat ≤ 2 ∧ canTaste (loaded frameC).f = false) ∧
    ((loaded frameA).valid = true ∧ (2#32).toNat ≤ 2 ∧ canTaste (loaded frameA).f = true) := by decide

/-- One answer of each mutator from a loaded A. -/
theorem witness_GateMap :
    (loaded frameA).valid = true ∧
    exec (.setDuration 30) (loaded frameA) = .next (answered (exec (.setDuration 30) (loaded frameA))) ∧
    exec (.setSchedule 61) (loaded frameA) = .next (answered (exec (.setSchedule 61) (loaded frameA))) ∧
    exec (.setSchedEn true) (loaded frameA) = .next (answered (exec (.setSchedEn true) (loaded frameA))) ∧
    exec (.setAkw true) (loaded frameA) = .next (answered (exec (.setAkw true) (loaded frameA))) ∧
    exec (.setRiceId 7) (loaded frameA) = .next (answered (exec (.setRiceId 7) (loaded frameA))) ∧
    exec (.setTaste 2) (loaded frameA) = .next (answered (exec (.setTaste 2) (loaded frameA))) :=
  ⟨rfl, rfl, rfl, rfl, rfl, rfl, rfl⟩

/-- The answers of `witness_GateMap` are all `OK`. -/
theorem witness_MutatedFieldsReadBack :
    (answered (exec (.setDuration 30) (loaded frameA))).status = .ok ∧
    (answered (exec (.setSchedule 61) (loaded frameA))).status = .ok ∧
    (answered (exec (.setSchedEn true) (loaded frameA))).status = .ok ∧
    (answered (exec (.setAkw true) (loaded frameA))).status = .ok ∧
    (answered (exec (.setRiceId 7) (loaded frameA))).status = .ok ∧
    (answered (exec (.setTaste 2) (loaded frameA))).status = .ok := by decide

/-- A command that changes each group of registers. -/
theorem witness_CommandsWriteOnlyTheirWriteSet :
    exec (.setDuration 30) (loaded frameA) = .next (answered (exec (.setDuration 30) (loaded frameA))) ∧
    0 ∉ writtenOffsets (.setDuration 30) ∧ 21 ∉ writtenOffsets (.setDuration 30) ∧
    (answered (exec .load (staged frameA))).ilen ≠ (staged frameA).ilen ∧
    (answered (exec (.crcFeed 0x41) midway)).crc ≠ midway.crc ∧
    (answered (exec (.inByte 0x99) midway)).ibuf ≠ midway.ibuf ∧
    (answered (exec .optClear midway)).optPresent ≠ midway.optPresent ∧
    (answered (exec .optClear midway)).optDur ≠ midway.optDur ∧
    (answered (exec (.optSchedule 9) midway)).optSched ≠ midway.optSched ∧
    (answered (exec (.optAkw true) midway)).optAkw ≠ midway.optAkw ∧
    (answered (exec (.optTaste 1) midway)).optTaste ≠ midway.optTaste :=
  ⟨rfl, by decide, by decide, by decide, by decide, by decide, by decide, by decide, by decide, by decide, by decide⟩

theorem witness_OnlyLoadsSetValidAndOnlyResetClearsIt :
    (exec .load { staged frameA with valid := false } =
        .next (answered (exec .load { staged frameA with valid := false })) ∧
      { staged frameA with valid := false }.valid = false ∧
      (answered (exec .load { staged frameA with valid := false })).valid = true) ∧
    (step { loaded frameA with pending := [.reset] } = .next (answered (step { loaded frameA with pending := [.reset] })) ∧
      (loaded frameA).valid = true ∧ (answered (step { loaded frameA with pending := [.reset] })).valid = false) :=
  ⟨⟨rfl, by decide, by decide⟩, ⟨rfl, by decide, by decide⟩⟩

/-- A state that agrees with `midway` on what `SET_DURATION` reads and differs in much else. -/
def elsewhere : State :=
  { midway with
    f := frameA.set 0 0x77, ibuf := frameD, ilen := 9, icrc := 1, crc := 2, optPresent := 0xA, optDur := 3, optSched := 4
    optAkw := true, optTaste := 5, status := .ok, result := 6, errlog := 0x0100, rspValid := false, pending := [.reset] }

/-- One command of a frame, one that reads nothing of `F` and `VALID`, and one that reads nothing. -/
theorem witness_CommandsReadOnlyTheirReadSet :
    (exec (.setDuration 30) midway = .next (answered (exec (.setDuration 30) midway)) ∧
      ∀ r ∈ readSet (.setDuration 30), r.value elsewhere = r.value midway) ∧
    (exec .load (staged frameA) = .next (answered (exec .load (staged frameA))) ∧
      ∀ r ∈ readSet .load, r.value { staged frameA with f := frameD, valid := false } = r.value (staged frameA)) ∧
    (exec .optClear midway = .next (answered (exec .optClear midway)) ∧
      ∀ r ∈ readSet .optClear, r.value elsewhere = r.value midway) :=
  ⟨⟨rfl, by decide⟩, ⟨rfl, by decide⟩, ⟨rfl, by decide⟩⟩

/-- `midway` has one staged byte; a buffer that agrees with its in byte 0 only. -/
theorem witness_StaleStagedBytesAreNeverRead :
    (∀ (k : Nat) (h : k < 22), k < midway.ilen.toNat → (Vector.replicate 22 2#8 : Frame)[k] = midway.ibuf[k]) ∧
    exec (.inByte 0x07) midway = .next (answered (exec (.inByte 0x07) midway)) ∧
    exec (.inByte 0x07) { midway with ibuf := Vector.replicate 22 2#8 } =
      .next (answered (exec (.inByte 0x07) { midway with ibuf := Vector.replicate 22 2#8 })) :=
  ⟨by decide, rfl, rfl⟩

/-- The three cases: a failed parse, a failed construction, a committed frame. -/
theorem witness_LoadOptFollowsItsRule :
    parseVerdict midway.ilen midway.icrc ≠ .ok ∧
    (parseVerdict (staged frameA).ilen (staged frameA).icrc = .ok ∧
      (construct frameA ⟨0x8, 0, 0, false, 3⟩ matches .error .errValidation) = true) ∧
    (construct frameA ⟨0x8, 0, 0, false, 2⟩ matches .ok (_, 0x8)) = true := by decide

/-- The option chain of V40 runs to its end; V113's taste stops it, and so does a duration of 256 hours on E. -/
theorem witness_LoadOptIsLoadThenTheMutators :
    parseVerdict optioned.ilen optioned.icrc = .ok ∧ (answered (exec .loadOpt optioned)).status = .ok ∧
    (answered (exec .loadOpt { optioned with optTaste := 3 })).status = .errValidation ∧
    (answered (exec .loadOpt { optioned with ibuf := frameE, optDur := 15360 })).status = .errRange := by decide

theorem witness_ConstructFailsOnlyWithRangeOrValidation :
    (construct frameE ⟨0x1, 15360, 0, false, 0⟩ matches .error .errRange) = true ∧
    ((0x6#4).getLsbD 0 = false ∧ (0x6#4).getLsbD 3 = false) ∧
    (construct frameA ⟨0xF, 30, 120, true, 2⟩ matches .ok _) = true := by decide

theorem witness_LoadOptWithoutOptionsIsLoad : (staged frameA).Inv ∧ (staged frameA).optPresent = 0 :=
  ⟨staged_meets_the_invariant, rfl⟩

theorem witness_SerializeAndNopFollowTheirRules :
    (0x0E4F = crc16 ((loaded frameA).f.toList.take 20) ∧ (loaded frameA).valid = true) ∧ State.reset.valid = false ∧
    exec .serialize (loaded frameA) = .next (answered (exec .serialize (loaded frameA))) :=
  ⟨by decide +kernel, rfl, rfl⟩

theorem witness_SerializeThenParseIsTheSameFrame : (loaded frameA).valid = true := rfl

theorem witness_EmitGivesTheHostTheWireFrame : (loaded frameA).valid = true := rfl

/-- Latency 1 and 2, no edge after the accepting one and exactly as many as the latency. -/
theorem witness_ClockedCommandIsOneTransaction :
    1 ≤ 1 ∧ (ready midway).cmdReady = true ∧ (ready midway).inFlight = none ∧
    (offerEdge 0x5000000000).rstN = true ∧ (offerEdge 0x5000000000).cmdValid = true ∧
    (∀ q ∈ [idleEdge], q.rstN = true) ∧ [idleEdge].length < 2 ∧ [idleEdge].length = 1 := by decide

theorem witness_ResponseIsStableUntilTheNextAcceptance :
    (ready midway).cmdReady = true ∧ (ready midway).inFlight = none ∧
    ∀ q ∈ [idleEdge, idleEdge], q.rstN = true ∧ q.cmdValid = false := by decide

theorem witness_ResetEdgeAbandonsTheCommandInFlight :
    resetEdgeInputs.rstN = false ∧ (offerEdge 0x0000000000).rstN = true := by decide

/-- A command in flight with one edge left. -/
theorem witness_EveryClockEdgeKeepsItsInvariant :
    1 ≤ 1 ∧ Clocked.Inv ⟨{ midway with rspValid := false }, some ⟨0x5000000000, 1⟩, false⟩ :=
  ⟨by decide, ⟨by decide, by intro fl h; cases h; exact ⟨rfl, by decide⟩, by intro _ h; exact absurd h (by decide)⟩⟩

end Sys2Proof.Tests
end

section
/-! PROOF. The illegal words (30_encoding.md R64, R65): what each argument form refuses, what the opcode map refuses, and
the answer to a refused word. -/

namespace Sys2Proof

/-- Form `NONE` refuses every argument but 0 (R64 (b)). -/
theorem formNone_error_iff (i : Instr) (arg : Word) : (∃ e, formNone i arg = .error e) ↔ arg.toNat ≠ 0 := by
  rw [formNone_eq]
  split <;> simp [*]

/-- Form `BYTE` refuses the arguments of more than eight bits (R64 (b)). -/
theorem formByte_error_iff (mk : Byte → Instr) (arg : Word) :
    (∃ e, formByte mk arg = .error e) ↔ 256 ≤ arg.toNat := by
  rw [formByte_eq]
  split <;> simp <;> omega

/-- Form `BOOL` refuses the arguments of more than one bit (R64 (b)). -/
theorem formBool_error_iff (mk : Bool → Instr) (arg : Word) :
    (∃ e, formBool mk arg = .error e) ↔ 2 ≤ arg.toNat := by
  rw [formBool_eq]
  split <;> simp <;> omega

/-- Form `U32` refuses no argument (R62). -/
theorem formU32_ne_error (mk : Word → Instr) (arg : Word) : ¬ ∃ e, formU32 mk arg = .error e := by
  simp [formU32]

/-- Form `FIELD` refuses the arguments above the last field id (R64 (b)). -/
theorem formField_error_iff (arg : Word) : (∃ e, formField arg = .error e) ↔ 14 < arg.toNat := by
  unfold formField
  split
  case h_16 => -- no field id
    simp only [Except.error.injEq, exists_eq', true_iff, imp_false] at *
    omega
  all_goals
    simp
    omega

/-- Form `OFFSET` refuses the arguments above the last offset (R64 (b)). -/
theorem formOffset_error_iff (mk : BitVec 5 → Instr) (arg : Word) :
    (∃ e, formOffset mk arg = .error e) ↔ 21 < arg.toNat := by
  rw [formOffset_eq]
  split <;> simp <;> omega

/-- The opcode map refuses exactly the illegal words: in a row of the map its form decides (R64 (b)), and the opcodes of
no row are the ranges of R64 (a). -/
theorem decodeFields_error_iff (opcode : Byte) (arg : Word) :
    (∃ e, decodeFields opcode arg = .error e) ↔ Machine.illegalWord opcode.toNat arg.toNat := by
  have hlt := opcode.isLt
  unfold decodeFields
  split
  case h_24 => -- no row of the map
    simp only [Machine.illegalWord, Except.error.injEq, exists_eq', true_iff, imp_false] at *
    omega
  all_goals
    next hop =>
      simp [Machine.illegalWord, hop, formNone_error_iff, formByte_error_iff, formBool_error_iff, formU32_ne_error,
        formField_error_iff, formOffset_error_iff]

namespace Machine

/-- The words the decoder refuses are the illegal words of R64. -/
theorem decode_error_iff (opcode : Byte) (arg : Word) :
    (∃ e, decode (commandWord opcode arg) = .error e) ↔ illegalWord opcode.toNat arg.toNat := by
  rw [decode_commandWord, decodeFields_error_iff]

/-- The answer to an illegal word, register by register (R64, R222). -/
theorem raise_errIllegal (s : State) : raise .errIllegal s =
    { s with status := .errIllegal, result := 0, errlog := s.errlog ||| 0x0100, rspValid := true } := rfl

end Machine

end Sys2Proof

open Sys2Proof Sys2Proof.Machine

/-- Settles O9: the decoder refuses by its fields, and a refused word is answered by `raise` before any other check. -/
theorem illegalWordsAreAnsweredErrIllegal : Obligations.IllegalWordsAreAnsweredErrIllegal := by
  refine ⟨decode_error_iff, fun opcode arg s hill => ?_⟩
  obtain ⟨e, he⟩ := (decode_error_iff opcode arg).mpr hill
  rw [answerWord_of_illegal he, raise_errIllegal]
end

section
/-! PROOF. The Checksum Engine (40_crc.md R81 to R85): `crc_update` on numbers, the words of the argument forms `NONE` and
`BYTE`, and what a run of `CRC_FEED` leaves. -/

namespace Sys2Proof.Machine

/-! `crc_update` on numbers (R81). -/

/-- One round of R81 on a number below 2^16. -/
def crcShiftNat (x : Nat) : Nat :=
  if 0x8000 ≤ x then ((2 * x) ^^^ 0x1021) % 0x10000 else (2 * x) % 0x10000

/-- Bit 15 is set from 0x8000 on. -/
theorem getLsbD_15_iff (c : Half) : c.getLsbD 15 = true ↔ 0x8000 ≤ c.toNat := by
  have hlt := c.isLt
  rw [BitVec.getLsbD, Nat.testBit_eq_decide_div_mod_eq, decide_eq_true_iff]
  omega

/-- A shift to the left by one doubles modulo 2^16. -/
theorem toNat_shiftLeft_one (c : Half) : (c <<< 1).toNat = (2 * c.toNat) % 0x10000 := by
  rw [BitVec.toNat_shiftLeft, Nat.shiftLeft_eq, Nat.pow_one, Nat.mul_comm]

/-- The round of the model is the round on numbers. -/
theorem toNat_crcShift (c : Half) : (crcShift c).toNat = crcShiftNat c.toNat := by
  by_cases h : c.getLsbD 15 = true
  · rw [crcShift, if_pos h, crcShiftNat, if_pos ((getLsbD_15_iff c).mp h), BitVec.toNat_xor, toNat_shiftLeft_one]
    exact (Nat.xor_mod_two_pow (n := 16)).symm
  · rw [crcShift, if_neg h, crcShiftNat, if_neg (mt (getLsbD_15_iff c).mpr h), toNat_shiftLeft_one]

/-- So are any number of rounds. -/
theorem toNat_crcRounds (n : Nat) (c : Half) : (crcRounds n c).toNat = crcShiftNat^[n] c.toNat := by
  induction n generalizing c with
  | zero => rfl
  | succ n ih => rw [crcRounds, ih, toNat_crcShift, Function.iterate_succ_apply]

/-- A byte put into the upper half of a CRC state is multiplied by 2^8. -/
theorem toNat_byteAtTop (b : Byte) : (b.setWidth 16 <<< 8 : Half).toNat = b.toNat * 0x100 := by
  have hlt := b.isLt
  rw [BitVec.toNat_shiftLeft, BitVec.toNat_setWidth, Nat.shiftLeft_eq]
  omega

/-! Words of an opcode whose argument form is `NONE` or `BYTE`, for every argument (30_encoding.md R62, R64 (b)). -/

/-- A word of form `NONE` runs its command with argument 0 and is illegal with any other. -/
theorem answerWord_of_formNone {opcode : Byte} {i : Instr} {arg : Word}
    (h : decodeFields opcode arg = formNone i arg) (s : State) :
    answerWord (commandWord opcode arg) s =
      if arg.toNat = 0 then exec i s else .next (respond .errIllegal 0 s) := by
  rw [← decode_commandWord, formNone_eq] at h
  split
  · next harg => exact answerWord_of_decode (h.trans (if_pos harg))
  · next harg => exact answerWord_of_illegal (h.trans (if_neg harg))

/-- A word of form `BYTE` runs its command on an argument of eight bits and is illegal with any other. -/
theorem answerWord_of_formByte {opcode : Byte} {mk : Byte → Instr} {arg : Word}
    (h : decodeFields opcode arg = formByte mk arg) (s : State) :
    answerWord (commandWord opcode arg) s =
      if arg.toNat < 256 then exec (mk (BitVec.ofNat 8 arg.toNat)) s else .next (respond .errIllegal 0 s) := by
  rw [← decode_commandWord, formByte_eq] at h
  split
  · next harg => exact answerWord_of_decode (h.trans (if_pos harg))
  · next harg => exact answerWord_of_illegal (h.trans (if_neg harg))

/-! The commands (R82 to R85). -/

theorem exec_crcClear (s : State) : exec .crcClear s = .next (respond .ok 0 { s with crc := 0x0000 }) := rfl

theorem exec_crcFeed (b : Byte) (s : State) :
    exec (.crcFeed b) s = .next (respond .ok 0 { s with crc := crcUpdate s.crc b }) := rfl

theorem exec_crcRead (s : State) : exec .crcRead s = .next (respond .ok (s.crc.setWidth 32) s) := rfl

/-- `CRC_CHECK` compares the CRC as a number. -/
theorem exec_crcCheck (s : State) :
    exec .crcCheck s = .next (respond .ok (if s.crc.toNat = 0 then 1 else 0) s) := by
  have h : (s.crc == 0) = true ↔ s.crc.toNat = 0 := by rw [beq_iff_eq, ← BitVec.toNat_inj]; rfl
  show Host.Outcome.next (respond .ok (flagWord (s.crc == 0)) s) = _
  simp only [flagWord, h]

/-- A run of `CRC_FEED` enters its bytes in the CRC, in order, and writes nothing else but the response. -/
theorem execAll_crcFeed (bytes : List Byte) (s : State) :
    ∃ t, execAll (bytes.map .crcFeed) s = .next t ∧
      sameButResponse { s with crc := bytes.foldl crcUpdate s.crc } t := by
  induction bytes generalizing s with
  | nil => exact ⟨s, rfl, rfl⟩
  | cons b rest ih => exact ih (respond .ok 0 { s with crc := crcUpdate s.crc b })

/-- No final XOR: `crc16` is the fold alone (R80). -/
theorem crc16_eq_foldl (bytes : List Byte) : crc16 bytes = bytes.foldl crcUpdate 0 := by
  simpa using crc16_append [] bytes

/-- `CRC_CLEAR` and a run of `CRC_FEED` leave the bytes' crc16 in the CRC and write nothing else but the response. -/
theorem execAll_crcClear_crcFeed (bytes : List Byte) (s : State) :
    ∃ t, execAll ([.crcClear] ++ bytes.map .crcFeed) s = .next t ∧
      sameButResponse { s with crc := crc16 bytes } t := by
  rw [crc16_eq_foldl]
  exact execAll_crcFeed bytes (respond .ok 0 { s with crc := 0x0000 })

/-- After `CRC_CLEAR` and a run of `CRC_FEED`, `CRC_READ` answers the bytes' crc16 (R84). -/
theorem execAll_checksum (bytes : List Byte) (s : State) :
    ∃ t, execAll (Pseudo.checksum bytes).expand s = .next (respond .ok ((crc16 bytes).setWidth 32) t) := by
  obtain ⟨t, hfed, hframe⟩ := execAll_crcClear_crcFeed bytes s
  have hcrc : t.crc = crc16 bytes := congrArg State.crc hframe
  exact ⟨t, by rw [Pseudo.expand, execAll_append, hfed, andThen_next, execAll, exec_crcRead, hcrc]; rfl⟩

end Sys2Proof.Machine

open Sys2Proof Sys2Proof.Machine

/-- Settles O13: each round of the model is the round on numbers, and the byte enters in the upper half. -/
theorem crcUpdateIsTheBitSerialLoop : Obligations.CrcUpdateIsTheBitSerialLoop := by
  intro c b
  rw [crcUpdate, toNat_crcRounds, BitVec.toNat_xor, toNat_byteAtTop]
  rfl

/-- Settles O23: the two commands as defined, and their words by the argument forms `NONE` and `BYTE`. -/
theorem crcClearAndCrcFeedFollowTheirRules : Obligations.CrcClearAndCrcFeedFollowTheirRules :=
  ⟨exec_crcClear, exec_crcFeed, fun _ => answerWord_of_formNone rfl, fun _ => answerWord_of_formByte rfl⟩

/-- Settles O24: the two commands and their words, and the checksum of a run of `CRC_FEED` by induction on its bytes. -/
theorem crcReadAndCrcCheckFollowTheirRules : Obligations.CrcReadAndCrcCheckFollowTheirRules := by
  refine ⟨fun s => ?_, exec_crcCheck, fun _ => answerWord_of_formNone rfl, fun _ => answerWord_of_formNone rfl,
    fun bytes s => ?_⟩
  · rw [BitVec.ofNat_toNat, exec_crcRead]
  · obtain ⟨t, ht⟩ := execAll_checksum bytes s
    exact ⟨_, ht, rfl, rfl⟩
end

section
/-! PROOF. Frame input and parse (41_load.md R100 to R104): what a pushed byte leaves in the staging registers, the parse
verdict case by case, and the two outcomes of `LOAD`. -/

namespace Sys2Proof.Machine

/-! `IN_CLEAR` and `IN_BYTE` (R100, R101). -/

theorem exec_inClear (s : State) : exec .inClear s = .next (respond .ok 0 (clearStaging s)) := rfl

theorem exec_inByte (b : Byte) (s : State) : exec (.inByte b) s = .next (respond .ok 0 (pushByte b s)) := rfl

/-- A pushed byte is stored at `ILEN`, and every other byte is kept; from `ILEN = 22` on that is all 22. -/
theorem getElem_pushByte_ibuf (b : Byte) (s : State) {k : Nat} (hk : k < 22) :
    (pushByte b s).ibuf[k] = if k = s.ilen.toNat then b else s.ibuf[k] := by
  rw [getElem_congr_coll (pushByte_ibuf b s)]
  split
  · simp only [Vector.getElem_set, eq_comm (a := k)]
  · next hfull => rw [if_neg (by omega)]

/-- `ILEN` counts up to 0xFFFF and stays there. -/
theorem toNat_pushByte_ilen (b : Byte) (s : State) :
    (pushByte b s).ilen.toNat = min (s.ilen.toNat + 1) 0xFFFF := by
  rw [pushByte_ilen]
  split
  · next hmax => rw [hmax]; rfl
  · next hmax =>
    have hne : s.ilen.toNat ≠ 0xFFFF := fun h => hmax (BitVec.eq_of_toNat_eq h)
    have hlt := s.ilen.isLt
    rw [BitVec.toNat_add]
    show (s.ilen.toNat + 1) % 0x10000 = _
    omega

/-- A pushed byte writes the three staging registers only. -/
theorem sameButResponse_respond_pushByte (st : Status) (r : Word) (b : Byte) (s : State) :
    sameButResponse { s with ibuf := (pushByte b s).ibuf, icrc := (pushByte b s).icrc, ilen := (pushByte b s).ilen }
      (respond st r (pushByte b s)) := rfl

/-! The parse verdict, case by case (R102). -/

theorem parseVerdict_of_short {n r : Half} (hn : n.toNat < 5) : parseVerdict n r = .errFormat := if_pos hn

theorem parseVerdict_of_badCrc {n r : Half} (hn : 5 ≤ n.toNat) (hr : r ≠ 0) : parseVerdict n r = .errIntegrity := by
  rw [parseVerdict, if_neg (Nat.not_lt.mpr hn), if_pos hr]

theorem parseVerdict_of_badLength {n r : Half} (hn : 5 ≤ n.toNat) (hr : r = 0) (h22 : n.toNat ≠ 22) :
    parseVerdict n r = .errLength := by
  rw [parseVerdict, if_neg (Nat.not_lt.mpr hn), if_neg (not_not.mpr hr), if_pos h22]

theorem parseVerdict_of_good {n r : Half} (h22 : n.toNat = 22) (hr : r = 0) : parseVerdict n r = .ok := by
  rw [parseVerdict, h22, if_neg (by decide), if_neg (not_not.mpr hr), if_neg (by decide)]

/-! `LOAD` by its verdict (R104). -/

/-- A good parse commits the staged bytes and clears the staging state. -/
theorem exec_load_of_ok {s : State} (h : parseVerdict s.ilen s.icrc = .ok) :
    exec .load s = .next (respond .ok 0 (commitFrame s.ibuf (clearStaging s))) := if_pos h

/-- A failed parse answers its verdict and only clears the staging state. -/
theorem exec_load_of_ne_ok {s : State} {e : Status} (h : parseVerdict s.ilen s.icrc = e) (he : e ≠ .ok) :
    exec .load s = .next (respond e 0 (clearStaging s)) := by
  subst h
  exact if_neg he

end Sys2Proof.Machine

open Sys2Proof Sys2Proof.Machine

/-- Settles O26: the two commands by what `clearStaging` and `pushByte` leave, and their words by the argument forms
`NONE` and `BYTE`. -/
theorem inClearAndInByteFollowTheirRules : Obligations.InClearAndInByteFollowTheirRules := by
  refine ⟨exec_inClear, fun b s => ?_, fun _ => answerWord_of_formNone rfl, fun _ => answerWord_of_formByte rfl⟩
  have herrlog : (respond .ok 0 (pushByte b s)).errlog = s.errlog := by simp
  exact ⟨_, exec_inByte b s, rfl, rfl, fun _ => getElem_pushByte_ibuf b s, rfl, toNat_pushByte_ilen b s,
    sameButResponse_respond_pushByte .ok 0 b s, herrlog⟩

/-- Settles O27: `LOAD` answers by the verdict, whose four cases are those of the statement, and its word is of form
`NONE`. -/
theorem loadFollowsTheParseVerdict : Obligations.LoadFollowsTheParseVerdict := by
  refine ⟨fun s hn => ?_, fun s hn hr => ?_, fun s hn hr h22 => ?_, fun s h22 hr => ?_,
    fun _ => answerWord_of_formNone rfl⟩
  · exact exec_load_of_ne_ok (parseVerdict_of_short hn) (by decide)
  · exact exec_load_of_ne_ok (parseVerdict_of_badCrc hn hr) (by decide)
  · exact exec_load_of_ne_ok (parseVerdict_of_badLength hn hr h22) (by decide)
  · exact exec_load_of_ok (parseVerdict_of_good h22 hr)
end

section
/-! PROOF. The bit-field extractor (42_extract.md R120 to R145): the fields of a frame as numbers, the five capability
predicates on their bytes, and the answers of `GET_FIELD` and `READ_BYTE`. -/

namespace Sys2Proof.Machine

/-! Fields as numbers (R125; 00_scope.md R14). -/

theorem toNat_be16 (hi lo : Byte) : (be16 hi lo).toNat = hi.toNat * 2 ^ 8 + lo.toNat := by
  rw [be16, BitVec.toNat_append, ← Nat.shiftLeft_add_eq_or_of_lt lo.isLt, Nat.shiftLeft_eq]

theorem toNat_be32 (b0 b1 b2 b3 : Byte) :
    (be32 b0 b1 b2 b3).toNat = b0.toNat * 2 ^ 24 + b1.toNat * 2 ^ 16 + b2.toNat * 2 ^ 8 + b3.toNat := by
  rw [be32, BitVec.toNat_append, ← Nat.shiftLeft_add_eq_or_of_lt (be16 b2 b3).isLt, Nat.shiftLeft_eq, toNat_be16,
    toNat_be16]
  omega

/-- A value zero-extended to `RESULT` is its number as a 32-bit value (00_scope.md R12). -/
theorem setWidth_eq_ofNat {w n : Nat} {x : BitVec w} (h : x.toNat = n) : x.setWidth 32 = BitVec.ofNat 32 n := by
  rw [← h, BitVec.ofNat_toNat]

/-- The low seven bits of a byte, as in `SCHED_HOURS` and `SCHED_MINS` (10_state.md R46). -/
theorem toNat_low7 (b : Byte) : (b.extractLsb' 0 7).toNat = b.toNat % 128 := by
  rw [BitVec.extractLsb'_toNat, Nat.shiftRight_zero]

/-- Bit 7 of a byte as a value, as in `SCHED_EN` and `AKW` (10_state.md R46). -/
theorem flagWord_bit7 (b : Byte) : flagWord (b.getLsbD 7) = BitVec.ofNat 32 (b.toNat / 128) := by
  have hlt := b.isLt
  rw [BitVec.getLsbD, Nat.testBit_eq_decide_div_mod_eq, flagWord]
  have hbit : b.toNat / 128 = 0 ∨ b.toNat / 128 = 1 := by omega
  rcases hbit with h | h <;> simp [h]

/-- The five flags in bits 0 to 4, for any values of the flags, are the sum of their weights (R140). -/
theorem caps_eq_ofNat (f : Frame) : caps f = BitVec.ofNat 32 ((canSchedule f).toNat + 2 * (canAkw f).toNat +
    4 * (canSetDuration f).toNat + 8 * (canChooseRice f).toNat + 16 * (canTaste f).toNat) := by
  rw [caps]
  generalize canSchedule f = v0, canAkw f = v1, canSetDuration f = v2, canChooseRice f = v3, canTaste f = v4
  revert v0 v1 v2 v3 v4
  decide

/-! The capability predicates (R120 to R124). -/

/-- Bit `i` is set exactly when the byte under that bit's mask is not 0. -/
theorem getLsbD_iff_and_twoPow (b : Byte) {i : Nat} (hi : i < 8) :
    b.getLsbD i = true ↔ b &&& BitVec.twoPow 8 i ≠ 0 := by
  have hmask : BitVec.twoPow 8 i ≠ 0 := by
    intro h
    have hbit := congrArg (BitVec.getLsbD · i) h
    simp [hi] at hbit
  rw [BitVec.and_twoPow]
  split
  · next hbit => exact iff_of_true hbit hmask
  · next hbit => exact iff_of_false hbit (not_not.mpr rfl)

/-- The menu identifier is the number of one byte `b` exactly when its bytes are `00 00 00 b` (R125). -/
theorem menuId_eq_setWidth_iff (f : Frame) (b : Byte) :
    menuId f = b.setWidth 32 ↔ f[3] = 0 ∧ f[4] = 0 ∧ f[5] = 0 ∧ f[6] = b := by
  have h3 := f[3].isLt
  have h4 := f[4].isLt
  have h5 := f[5].isLt
  have h6 := f[6].isLt
  have hb := b.isLt
  simp only [← BitVec.toNat_inj, menuId, toNat_be32, BitVec.toNat_setWidth, BitVec.ofNat_eq_ofNat, BitVec.toNat_ofNat]
  omega

theorem menuId_eq_one_iff (f : Frame) : menuId f = 1 ↔ f[3] = 0 ∧ f[4] = 0 ∧ f[5] = 0 ∧ f[6] = 1 :=
  menuId_eq_setWidth_iff f 1

theorem menuId_eq_two_iff (f : Frame) : menuId f = 2 ↔ f[3] = 0 ∧ f[4] = 0 ∧ f[5] = 0 ∧ f[6] = 2 :=
  menuId_eq_setWidth_iff f 2

/-! The commands as frame reads (R126 to R141, R145). -/

theorem exec_getDevtype (s : State) : exec .getDevtype s = readFrame (fun f => (deviceType f).setWidth 32) s := rfl

theorem exec_getSubtype (s : State) : exec .getSubtype s = readFrame (fun f => (subType f).setWidth 32) s := rfl

theorem exec_getMenuIndex (s : State) : exec .getMenuIndex s = readFrame (fun f => (menuIndex f).setWidth 32) s := rfl

theorem exec_getMenuId (s : State) : exec .getMenuId s = readFrame menuId s := rfl

theorem exec_getFlags (s : State) : exec .getFlags s = readFrame (fun f => (flagByte f).setWidth 32) s := rfl

theorem exec_getDuration (s : State) : exec .getDuration s = readFrame (fun f => minutesWord (duration f)) s := rfl

theorem exec_getMaxTime (s : State) : exec .getMaxTime s = readFrame (fun f => minutesWord (maxTime f)) s := rfl

theorem exec_getMinTime (s : State) : exec .getMinTime s = readFrame (fun f => minutesWord (minTime f)) s := rfl

theorem exec_getSchedule (s : State) : exec .getSchedule s = readFrame (fun f => minutesWord (schedule f)) s := rfl

theorem exec_getSchedEn (s : State) : exec .getSchedEn s = readFrame (fun f => flagWord (schedEn f)) s := rfl

theorem exec_getAkw (s : State) : exec .getAkw s = readFrame (fun f => flagWord (autoKeepWarm f)) s := rfl

theorem exec_getRiceId (s : State) : exec .getRiceId s = readFrame (fun f => (riceId f).setWidth 32) s := rfl

theorem exec_getTaste (s : State) : exec .getTaste s = readFrame (fun f => (taste f).setWidth 32) s := rfl

theorem exec_getCaps (s : State) : exec .getCaps s = readFrame caps s := rfl

theorem exec_getTrailer (s : State) : exec .getTrailer s = readFrame (fun f => (trailer f).setWidth 32) s := rfl

/-- A command that is a frame read answers its value when there is a profile. -/
theorem exec_of_readFrame {i : Instr} {value : Frame → Word} {s : State} {v : Word}
    (hread : exec i s = readFrame value s) (hvalid : s.valid = true) (hv : value s.f = v) :
    exec i s = .next (respond .ok v s) := by
  rw [hread, readFrame_valid hvalid, hv]

/-- `READ_BYTE` of an offset of the frame. -/
theorem exec_readByte {k : BitVec 5} (hk : k.toNat < 22) (s : State) :
    exec (.readByte k) s = readFrame (fun f => f[k.toNat].setWidth 32) s := dif_pos hk

/-- A word of form `OFFSET` runs its command on an offset of the frame and is illegal with any other argument
(30_encoding.md R62, R64 (b)). -/
theorem answerWord_of_formOffset {opcode : Byte} {mk : BitVec 5 → Instr} {arg : Word}
    (h : decodeFields opcode arg = formOffset mk arg) (s : State) :
    answerWord (commandWord opcode arg) s =
      if arg.toNat < 22 then exec (mk (BitVec.ofNat 5 arg.toNat)) s else .next (respond .errIllegal 0 s) := by
  rw [← decode_commandWord, formOffset_eq] at h
  split
  · next harg => exact answerWord_of_decode (h.trans (if_pos harg))
  · next harg => exact answerWord_of_illegal (h.trans (if_neg harg))

/-- An offset of the frame fits the five bits of `READ_BYTE`'s operand. -/
theorem toNat_offset {n : Nat} (hn : n < 22) : (BitVec.ofNat 5 n).toNat = n := by
  rw [BitVec.toNat_ofNat, Nat.mod_eq_of_lt (by omega)]

/-- The word of `READ_BYTE` with an offset of the frame reads the byte at the argument. -/
theorem answerWord_readByte {arg : Word} (harg : arg.toNat < 22) (s : State) :
    answerWord (commandWord 0x21 arg) s = readFrame (fun f => f[arg.toNat].setWidth 32) s := by
  rw [answerWord_of_formOffset rfl, if_pos harg, exec_readByte (by rwa [toNat_offset harg])]
  simp only [toNat_offset harg]

end Sys2Proof.Machine

open Sys2Proof Sys2Proof.Machine

/-- Settles O30: the flag bits by their masks, and the menu identifier by its four bytes. -/
theorem capabilityPredicatesReadTheirBytes : Obligations.CapabilityPredicatesReadTheirBytes := by
  intro f
  refine ⟨getLsbD_iff_and_twoPow f[7] (by decide), getLsbD_iff_and_twoPow f[7] (by decide), decide_eq_true_iff, ?_, ?_⟩
  · rw [canChooseRice, Bool.or_eq_true, beq_iff_eq, beq_iff_eq, menuId_eq_one_iff, menuId_eq_two_iff]
    simp only [and_or_left]
  · rw [canTaste, beq_iff_eq, menuId_eq_one_iff]

/-- Settles O31: each command is a frame read, and its value is the number of its bytes. -/
theorem getFieldReturnsTheStoredFields : Obligations.GetFieldReturnsTheStoredFields := by
  intro s hvalid
  have hmenuId : menuId s.f = BitVec.ofNat 32 _ := (BitVec.setWidth_eq _).symm.trans (setWidth_eq_ofNat (toNat_be32 ..))
  exact ⟨exec_of_readFrame (exec_getDevtype s) hvalid (setWidth_eq_ofNat rfl),
    exec_of_readFrame (exec_getSubtype s) hvalid (setWidth_eq_ofNat rfl),
    exec_of_readFrame (exec_getMenuIndex s) hvalid (setWidth_eq_ofNat rfl),
    exec_of_readFrame (exec_getMenuId s) hvalid hmenuId,
    exec_of_readFrame (exec_getFlags s) hvalid (setWidth_eq_ofNat rfl),
    exec_of_readFrame (exec_getRiceId s) hvalid (setWidth_eq_ofNat (toNat_be16 ..)),
    exec_of_readFrame (exec_getTaste s) hvalid (setWidth_eq_ofNat rfl),
    exec_of_readFrame (exec_getTrailer s) hvalid (setWidth_eq_ofNat (toNat_be16 ..))⟩

/-- Settles O32: each command is a frame read; the schedule takes the low seven bits of its bytes and the flags bit 7. -/
theorem getFieldReturnsTheComputedFields : Obligations.GetFieldReturnsTheComputedFields := by
  intro s hvalid
  have hschedule : schedule s.f = s.f[14].toNat % 128 * 60 + s.f[15].toNat % 128 := by
    rw [schedule, schedHours, schedMins, toNat_low7, toNat_low7, hm]
  exact ⟨exec_of_readFrame (exec_getDuration s) hvalid rfl,
    exec_of_readFrame (exec_getMaxTime s) hvalid rfl,
    exec_of_readFrame (exec_getMinTime s) hvalid rfl,
    exec_of_readFrame (exec_getSchedule s) hvalid (congrArg minutesWord hschedule),
    exec_of_readFrame (exec_getSchedEn s) hvalid (flagWord_bit7 _),
    exec_of_readFrame (exec_getAkw s) hvalid (flagWord_bit7 _),
    exec_of_readFrame (exec_getCaps s) hvalid (caps_eq_ofNat _)⟩

/-- Settles O34: the word is of form `OFFSET`, and a good offset makes it the frame read of that byte. -/
theorem readByteFollowsItsRule : Obligations.ReadByteFollowsItsRule := by
  refine ⟨fun k hk s hvalid => ?_, fun arg s => ?_⟩
  · exact exec_of_readFrame (exec_readByte hk s) hvalid (setWidth_eq_ofNat rfl)
  · split
    · next harg => rw [answerWord_readByte harg, readFrame, BitVec.ofNat_toNat, raise]
    · next harg => rw [answerWord_of_formOffset rfl, if_neg harg]
end

section
/-! PROOF. The six mutators (43_mutate.md R150 to R160): the clamp and the split, what each body answers case by case, the
packed bytes as numbers, and the words of the argument forms `BOOL` and `U32`. -/

namespace Sys2Proof.Machine

/-! The clamp and the split (R150, R153). -/

/-- On an interval the mux-tree is the maximum of the lower bound and a minimum. -/
theorem clamp_eq_max_min {lo hi : Nat} (h : lo ≤ hi) (x : Nat) : clamp x lo hi = max lo (min x hi) := by
  unfold clamp
  split
  · omega
  · split <;> omega

theorem split60_eq (x : Nat) : split60 x = (x / 60, x % 60) := rfl

/-! Words of an opcode whose argument form is `BOOL` or `U32`, for every argument (30_encoding.md R62, R64 (b)). -/

/-- A word of form `BOOL` runs its command on 0 or 1 and is illegal with any other argument. -/
theorem answerWord_of_formBool {opcode : Byte} {mk : Bool → Instr} {arg : Word}
    (h : decodeFields opcode arg = formBool mk arg) (s : State) :
    answerWord (commandWord opcode arg) s =
      if arg.toNat ≤ 1 then exec (mk (decide (arg.toNat = 1))) s else .next (respond .errIllegal 0 s) := by
  rw [← decode_commandWord, formBool_eq] at h
  split
  · next harg => exact answerWord_of_decode (h.trans (if_pos harg))
  · next harg => exact answerWord_of_illegal (h.trans (if_neg harg))

/-- A word of form `U32` runs its command on any argument. -/
theorem answerWord_of_formU32 {opcode : Byte} {mk : Word → Instr} {arg : Word}
    (h : decodeFields opcode arg = formU32 mk arg) (s : State) :
    answerWord (commandWord opcode arg) s = exec (mk arg) s :=
  answerWord_of_decode ((decode_commandWord opcode arg).trans h)

/-! The commands as mutators (R151). -/

theorem exec_setDuration (n : Word) (s : State) : exec (.setDuration n) s = mutate (bodySetDuration n) s := rfl

theorem exec_setSchedule (n : Word) (s : State) : exec (.setSchedule n) s = mutate (bodySetSchedule n) s := rfl

theorem exec_setSchedEn (v : Bool) (s : State) : exec (.setSchedEn v) s = mutate (bodySetSchedEn v) s := rfl

theorem exec_setAkw (v : Bool) (s : State) : exec (.setAkw v) s = mutate (bodySetAkw v) s := rfl

theorem exec_setRiceId (n : Word) (s : State) : exec (.setRiceId n) s = mutate (bodySetRiceId n) s := rfl

theorem exec_setTaste (n : Word) (s : State) : exec (.setTaste n) s = mutate (bodySetTaste n) s := rfl

/-- A command that is a mutator answers `ERR_NOPROFILE` without a profile. -/
theorem exec_of_mutate_noProfile {i : Instr} {body : Body} {s : State} (hmutate : exec i s = mutate body s)
    (hvalid : s.valid = false) : exec i s = .next (respond .errNoProfile 0 s) :=
  hmutate.trans (mutate_invalid hvalid)

/-- With a profile it answers its body's status and takes its body's frame. -/
theorem exec_of_mutate {i : Instr} {body : Body} {s : State} {st : Status} {g : Frame}
    (hmutate : exec i s = mutate body s) (hvalid : s.valid = true) (hbody : body s.f = (st, g)) :
    exec i s = .next (respond st 0 { s with f := g }) := by
  rw [hmutate, mutate_valid hvalid, hbody]

/-! The bodies case by case; a closed gate is `gated_false`. -/

/-- `SET_DURATION` stores the clamped argument when its hours fit a byte (R152, R155). -/
theorem bodySetDuration_of_fits {n : Word} {f : Frame} {d : Nat} (hcan : canSetDuration f = true)
    (hd : clamp n.toNat (minTime f) (maxTime f) = d) (hfits : d / 60 ≤ 255) :
    bodySetDuration n f = (.ok, packDuration (d / 60) (d % 60) f) := by
  rw [bodySetDuration, gated_true hcan, hd, split60_eq]
  exact if_neg (Nat.not_lt.mpr hfits)

theorem bodySetDuration_of_tooLong {n : Word} {f : Frame} {d : Nat} (hcan : canSetDuration f = true)
    (hd : clamp n.toNat (minTime f) (maxTime f) = d) (hlong : 255 < d / 60) :
    bodySetDuration n f = (.errRange, f) := by
  rw [bodySetDuration, gated_true hcan, hd, split60_eq]
  exact if_pos hlong

/-- `SET_SCHEDULE` stores its argument when its hours fit seven bits (R155, R156). -/
theorem bodySetSchedule_of_fits {n : Word} {f : Frame} (hcan : canSchedule f = true) (hfits : n.toNat / 60 ≤ 127) :
    bodySetSchedule n f = (.ok, packSchedule (n.toNat / 60) (n.toNat % 60) f) := by
  rw [bodySetSchedule, gated_true hcan, split60_eq]
  exact if_neg (Nat.not_lt.mpr hfits)

theorem bodySetSchedule_of_tooLong {n : Word} {f : Frame} (hcan : canSchedule f = true) (hlong : 127 < n.toNat / 60) :
    bodySetSchedule n f = (.errRange, f) := by
  rw [bodySetSchedule, gated_true hcan, split60_eq]
  exact if_pos hlong

theorem bodySetTaste_of_invalid {n : Word} (hn : 2 < n.toNat) (f : Frame) : bodySetTaste n f = (.errValidation, f) :=
  if_pos hn

/-- A valid index leaves the answer to the gate (R160). -/
theorem bodySetTaste_of_valid {n : Word} (hn : n.toNat ≤ 2) (f : Frame) :
    bodySetTaste n f = gated canTaste (fun g => (.ok, packTaste n g)) f :=
  if_neg (Nat.not_lt.mpr hn)

/-! The packed bytes as numbers. -/

/-- A byte of which at most bit 7 is set, and a number below that bit, are packed by adding (10_state.md R46). -/
theorem or_low7_eq_ofNat {b : Byte} {q m : Nat} (hb : b.toNat = 128 * q) (hm : m < 128) :
    b ||| BitVec.ofNat 8 m = BitVec.ofNat 8 (128 * q + m) := by
  have hlt := b.isLt
  have hor : 128 * q + m = 128 * q ||| m := Nat.two_pow_add_eq_or_of_lt (i := 7) hm q
  apply BitVec.eq_of_toNat_eq
  rw [BitVec.toNat_or, BitVec.toNat_ofNat, BitVec.toNat_ofNat, hb, Nat.mod_eq_of_lt (by omega), ← hor,
    Nat.mod_eq_of_lt (by omega)]

/-- Bit 7 of a byte in its place. -/
theorem toNat_and_bit7 (b : Byte) : (b &&& 0x80).toNat = 128 * (b.toNat / 128) := by
  have hlt := b.isLt
  rw [BitVec.toNat_and]
  show b.toNat &&& 2 ^ 7 = _
  rw [Nat.and_two_pow, Nat.toNat_testBit]
  omega

/-- The low seven bits of a byte in their place. -/
theorem and_low7_eq_ofNat (b : Byte) : b &&& 0x7F = BitVec.ofNat 8 (b.toNat % 128) := by
  apply BitVec.eq_of_toNat_eq
  rw [BitVec.toNat_and, BitVec.toNat_ofNat, Nat.mod_eq_of_lt (by omega)]
  exact Nat.and_two_pow_sub_one_eq_mod b.toNat 7

theorem withBit7_eq_ofNat (x : Byte) (v : Bool) :
    withBit7 x v = BitVec.ofNat 8 (128 * v.toNat + x.toNat % 128) := by
  have hbit : (if v then 0x80 else 0x00 : Byte).toNat = 128 * v.toNat := by cases v <;> rfl
  rw [withBit7, and_low7_eq_ofNat, BitVec.or_comm, or_low7_eq_ofNat hbit (Nat.mod_lt _ (by decide))]

/-- The schedule's two bytes: the hours below the enabled flag, the minutes below the auto-keep-warm flag as it was. -/
theorem packSchedule_eq {h m : Nat} (hh : h < 128) (hm : m < 128) (f : Frame) : packSchedule h m f =
    (f.set 14 (BitVec.ofNat 8 (128 + h))).set 15 (BitVec.ofNat 8 (128 * (f[15].toNat / 128) + m)) := by
  rw [packSchedule, or_low7_eq_ofNat (q := 1) rfl hh, or_low7_eq_ofNat (toNat_and_bit7 f[15]) hm]

/-- The two bytes of a rice identifier are its quotient and its remainder by 256. -/
theorem packRiceId_eq (r : Half) (f : Frame) : packRiceId r f =
    (f.set 17 (BitVec.ofNat 8 (r.toNat / 256))).set 18 (BitVec.ofNat 8 (r.toNat % 256)) := by
  have hhi : r.extractLsb' 8 8 = BitVec.ofNat 8 (r.toNat / 256) :=
    congrArg (BitVec.ofNat 8) (Nat.shiftRight_eq_div_pow r.toNat 8)
  have hlo : r.extractLsb' 0 8 = BitVec.ofNat 8 (r.toNat % 256) := by
    apply BitVec.eq_of_toNat_eq
    simp [BitVec.extractLsb'_toNat]
  rw [packRiceId, hhi, hlo]

/-- An identifier of 16 bits is stored as it is (R159). -/
theorem toNat_wrapRiceId_of_le {n : Word} (hn : n.toNat ≤ 0xFFFF) : (wrapRiceId n).toNat = n.toNat := by
  rw [wrapRiceId, if_neg (Nat.not_lt.mpr hn), BitVec.extractLsb'_toNat, Nat.shiftRight_zero,
    Nat.mod_eq_of_lt (Nat.lt_succ_of_le hn)]

/-- A larger one becomes 0 (R159). -/
theorem wrapRiceId_of_gt {n : Word} (hn : 0xFFFF < n.toNat) : wrapRiceId n = 0 := if_pos hn

end Sys2Proof.Machine

open Sys2Proof Sys2Proof.Machine

/-- Settles O35: the three branches of the mux-tree, and division by 60. -/
theorem clampAndSplitComputeTheirFunctions : Obligations.ClampAndSplitComputeTheirFunctions := by
  refine ⟨fun x lo hi h => clamp_eq_max_min h x, fun x => ?_⟩
  rw [split60_eq]
  exact ⟨Nat.div_add_mod' x 60, Nat.mod_lt x (by decide)⟩

/-- Settles O36: the gate compares the two bounds, and on an open gate the stored minutes are the clamped argument. -/
theorem setDurationFollowsItsRule : Obligations.SetDurationFollowsItsRule := by
  rintro n s lo hi d hlo hhi rfl
  have hmin : minTime s.f = lo := hlo.symm
  have hmax : maxTime s.f = hi := hhi.symm
  have hd (hlt : lo < hi) : clamp n.toNat (minTime s.f) (maxTime s.f) = max lo (min n.toNat hi) := by
    rw [hmin, hmax, clamp_eq_max_min hlt.le]
  have hcan (hlt : lo < hi) : canSetDuration s.f = true := by
    rwa [canSetDuration, decide_eq_true_iff, hmin, hmax]
  refine ⟨exec_of_mutate_noProfile (exec_setDuration n s), fun hvalid hle => ?_, fun hvalid hlt hfits => ?_,
    fun hvalid hlt hlong => ?_, answerWord_of_formU32 rfl s⟩
  · have hcannot : canSetDuration s.f = false := by
      rwa [canSetDuration, decide_eq_false_iff_not, hmin, hmax, Nat.not_lt]
    exact exec_of_mutate (exec_setDuration n s) hvalid (gated_false hcannot)
  · exact exec_of_mutate (exec_setDuration n s) hvalid (bodySetDuration_of_fits (hcan hlt) (hd hlt) hfits)
  · exact exec_of_mutate (exec_setDuration n s) hvalid (bodySetDuration_of_tooLong (hcan hlt) (hd hlt) hlong)

/-- Settles O37: 7680 minutes are 128 hours, the first that do not fit seven bits. -/
theorem setScheduleFollowsItsRule : Obligations.SetScheduleFollowsItsRule := by
  intro n s
  refine ⟨exec_of_mutate_noProfile (exec_setSchedule n s), fun hvalid hcannot => ?_, fun hvalid hcan hn => ?_,
    fun hvalid hcan hn => ?_, answerWord_of_formU32 rfl s⟩
  · exact exec_of_mutate (exec_setSchedule n s) hvalid (gated_false hcannot)
  · rw [exec_of_mutate (exec_setSchedule n s) hvalid (bodySetSchedule_of_fits hcan (by omega)),
      packSchedule_eq (by omega) (by omega)]
  · exact exec_of_mutate (exec_setSchedule n s) hvalid (bodySetSchedule_of_tooLong hcan (by omega))

/-- Settles O38: both commands set bit 7 of their byte, `SET_AKW` behind its gate, and their words are of form `BOOL`. -/
theorem setSchedEnAndSetAkwFollowTheirRules : Obligations.SetSchedEnAndSetAkwFollowTheirRules := by
  intro v s
  refine ⟨fun hvalid => ⟨exec_of_mutate_noProfile (exec_setSchedEn v s) hvalid,
      exec_of_mutate_noProfile (exec_setAkw v s) hvalid⟩,
    fun hvalid => ?_, fun hvalid hcannot => ?_, fun hvalid hcan => ?_,
    fun arg => answerWord_of_formBool rfl s, fun arg => answerWord_of_formBool rfl s⟩
  · rw [exec_of_mutate (exec_setSchedEn v s) hvalid rfl, packSchedEn, withBit7_eq_ofNat]
  · exact exec_of_mutate (exec_setAkw v s) hvalid (gated_false hcannot)
  · rw [exec_of_mutate (exec_setAkw v s) hvalid (gated_true hcan), packAkw, withBit7_eq_ofNat]

/-- Settles O39: the stored identifier is the argument up to 0xFFFF and 0 above. -/
theorem setRiceIdFollowsItsRule : Obligations.SetRiceIdFollowsItsRule := by
  intro n s
  refine ⟨exec_of_mutate_noProfile (exec_setRiceId n s), fun hvalid hcannot => ?_, fun hvalid hcan hn => ?_,
    fun hvalid hcan hn => ?_, answerWord_of_formU32 rfl s⟩
  · exact exec_of_mutate (exec_setRiceId n s) hvalid (gated_false hcannot)
  · rw [exec_of_mutate (exec_setRiceId n s) hvalid (gated_true hcan), packRiceId_eq, toNat_wrapRiceId_of_le hn]
  · rw [exec_of_mutate (exec_setRiceId n s) hvalid (gated_true hcan), wrapRiceId_of_gt hn]
    rfl

/-- Settles O40: the index is validated first, and a valid one goes to the gate. -/
theorem setTasteFollowsItsRule : Obligations.SetTasteFollowsItsRule := by
  intro n s
  refine ⟨exec_of_mutate_noProfile (exec_setTaste n s), fun hvalid hn => ?_, fun hvalid hn hcannot => ?_,
    fun hvalid hn hcan => ?_, answerWord_of_formU32 rfl s⟩
  · exact exec_of_mutate (exec_setTaste n s) hvalid (bodySetTaste_of_invalid hn s.f)
  · exact exec_of_mutate (exec_setTaste n s) hvalid ((bodySetTaste_of_valid hn s.f).trans (gated_false hcannot))
  · exact exec_of_mutate (exec_setTaste n s) hvalid ((bodySetTaste_of_valid hn s.f).trans (gated_true hcan))
end

section
/-! PROOF. The staging commands of construction (44_construct.md R180 to R184): what each command answers. Their words are
of the argument forms `NONE`, `U32` and `BOOL`. -/

namespace Sys2Proof.Machine

/-- `OPT_CLEAR` is `clearOptions` and an answer (R180). -/
theorem exec_optClear (s : State) : exec .optClear s = .next (respond .ok 0 (clearOptions s)) := rfl

/-- `OPT_DURATION` stages its minutes and bit 0 of `OPT_PRESENT` (R181). -/
theorem exec_optDuration (n : Word) (s : State) :
    exec (.optDuration n) s = .next (respond .ok 0 { s with optDur := n, optPresent := s.optPresent ||| 1 }) := rfl

/-- `OPT_SCHEDULE` stages its minutes and bit 1 (R182). -/
theorem exec_optSchedule (n : Word) (s : State) :
    exec (.optSchedule n) s = .next (respond .ok 0 { s with optSched := n, optPresent := s.optPresent ||| 2 }) := rfl

/-- `OPT_AKW` stages its flag and bit 2 (R183). -/
theorem exec_optAkw (v : Bool) (s : State) :
    exec (.optAkw v) s = .next (respond .ok 0 { s with optAkw := v, optPresent := s.optPresent ||| 4 }) := rfl

/-- `OPT_TASTE` stages its index, not yet validated, and bit 3 (R184). -/
theorem exec_optTaste (n : Word) (s : State) :
    exec (.optTaste n) s = .next (respond .ok 0 { s with optTaste := n, optPresent := s.optPresent ||| 8 }) := rfl

end Sys2Proof.Machine

open Sys2Proof Sys2Proof.Machine

/-- Settles O47: the five commands as defined, from any state, and their words by their argument forms. -/
theorem optionCommandsFollowTheirRules : Obligations.OptionCommandsFollowTheirRules := by
  intro n v s
  exact ⟨exec_optClear s, exec_optDuration n s, exec_optSchedule n s, exec_optAkw v s, exec_optTaste n s,
    answerWord_of_formU32 rfl s, answerWord_of_formU32 rfl s, answerWord_of_formU32 rfl s,
    fun _ => answerWord_of_formNone rfl s, fun _ => answerWord_of_formBool rfl s⟩
end

section
/-! PROOF. Serialize and `NOP` (45_serialize.md R200, R202): the packed trailer, the two outcomes of `SERIALIZE`, and why a
second one changes nothing. -/

namespace Sys2Proof.Machine

/-! The packed trailer. -/

/-- The upper byte of a 16-bit value is its quotient by 256. -/
theorem extractLsb'_hi_eq_ofNat (c : Half) : c.extractLsb' 8 8 = BitVec.ofNat 8 (c.toNat / 256) :=
  congrArg (BitVec.ofNat 8) (Nat.shiftRight_eq_div_pow c.toNat 8)

/-- The lower byte is its remainder. -/
theorem extractLsb'_lo_eq_ofNat (c : Half) : c.extractLsb' 0 8 = BitVec.ofNat 8 (c.toNat % 256) := by
  apply BitVec.eq_of_toNat_eq
  simp [BitVec.extractLsb'_toNat]

/-- The two bytes of the trailer as numbers, the upper one first (R200). -/
theorem packTrailer_eq (c : Half) (f : Frame) : packTrailer c f =
    (f.set 20 (BitVec.ofNat 8 (c.toNat / 256))).set 21 (BitVec.ofNat 8 (c.toNat % 256)) := by
  rw [packTrailer, extractLsb'_hi_eq_ofNat, extractLsb'_lo_eq_ofNat]

/-- The trailer stands behind the payload. -/
@[simp] theorem payload_packTrailer (c : Half) (f : Frame) : payload (packTrailer c f) = payload f := by
  rw [payload, packTrailer, Vector.toList_set, Vector.toList_set, List.take_set_of_le (by decide),
    List.take_set_of_le (by decide), payload]

/-- Of two packed trailers the second one stays. -/
@[simp] theorem packTrailer_packTrailer (c d : Half) (f : Frame) :
    packTrailer d (packTrailer c f) = packTrailer d f := by
  rw [packTrailer, packTrailer, Vector.set_comm _ _ (by decide), Vector.set_set,
    Vector.set_comm _ _ (by decide), Vector.set_set, packTrailer]

/-- A response given twice is the response given once: its bit of `ERRLOG` is set already (10_state.md R32). -/
@[simp] theorem respond_respond_self (st : Status) (r : Word) (s : State) :
    respond st r (respond st r s) = respond st r s := by
  have herrlog : s.errlog ||| errlogBit st ||| errlogBit st = s.errlog ||| errlogBit st := by
    rw [BitVec.or_assoc, BitVec.or_self]
  rw [respond, respond_errlog, herrlog]
  rfl

/-! The commands (R200, R202). -/

theorem exec_nop (s : State) : exec .nop s = .next (respond .ok 0 s) := rfl

/-- With a profile `SERIALIZE` answers the payload's crc16 and packs it. -/
theorem exec_serialize_of_valid {s : State} (hvalid : s.valid = true) : exec .serialize s =
    .next (respond .ok ((crc16 (payload s.f)).setWidth 32) { s with f := packTrailer (crc16 (payload s.f)) s.f }) :=
  if_pos hvalid

theorem exec_serialize_of_noProfile {s : State} (hvalid : s.valid = false) :
    exec .serialize s = .next (respond .errNoProfile 0 s) :=
  if_neg (ne_true_of_eq_false hvalid)

/-- Where the trailer is the payload's crc16 already, `SERIALIZE` only gives its response. -/
theorem exec_serialize_of_stored {s : State} (hvalid : s.valid = true)
    (hstored : packTrailer (crc16 (payload s.f)) s.f = s.f) :
    exec .serialize s = .next (respond .ok ((crc16 (payload s.f)).setWidth 32) s) := by
  rw [exec_serialize_of_valid hvalid, hstored]

/-- A second `SERIALIZE` computes the same crc16, for the payload is as it was; so it finds its trailer stored and gives
the response that was given. -/
theorem exec_serialize_idempotent {s t : State} (hvalid : s.valid = true) (h : exec .serialize s = .next t) :
    exec .serialize t = .next t := by
  rw [exec_serialize_of_valid hvalid, Host.Outcome.next.injEq] at h
  subst h
  rw [exec_serialize_of_stored (by exact hvalid) (by simp), respond_f, payload_packTrailer, respond_respond_self]

end Sys2Proof.Machine

open Sys2Proof Sys2Proof.Machine

/-- Settles O52: the two outcomes of `SERIALIZE` with the trailer's bytes as numbers, its idempotence, and the words of the
argument form `NONE`. -/
theorem serializeAndNopFollowTheirRules : Obligations.SerializeAndNopFollowTheirRules := by
  refine ⟨?_, fun _ => exec_serialize_of_noProfile, fun _ _ => exec_serialize_idempotent, exec_nop,
    fun _ => answerWord_of_formNone rfl, fun _ => answerWord_of_formNone rfl⟩
  rintro s c rfl hvalid
  rw [← packTrailer_eq, BitVec.ofNat_toNat]
  exact exec_serialize_of_valid hvalid
end

section
/-! PROOF. The response that ends every command and what an error leaves behind (60_exceptions.md R220, R222, R223): the
sticky bit of a status, the errors a body and a construction end with, and the one shape of an answer that is an error. -/

namespace Sys2Proof.Machine

/-! The response (R220, R222). -/

theorem sameButResponse_respond (st : Status) (r : Word) (s : State) : sameButResponse s (respond st r s) := rfl

/-- The nine codes end at 8 (R220). -/
theorem code_le_eight (st : Status) : st.code.toNat ≤ 8 := by
  cases st <;> decide

/-- The sticky bit of a status is the bit its code names, and an error's only (R222). -/
theorem getLsbD_errlogBit (st : Status) (k : Nat) :
    (errlogBit st).getLsbD k = (decide (k = st.code.toNat) && decide (2 ≤ st.code.toNat)) := by
  by_cases herr : st.isError = true
  · have hcode : st.code.toNat < 16 := st.code.isLt
    have hbit : errlogBit st = BitVec.twoPow 16 st.code.toNat := if_pos herr
    simp [hbit, BitVec.getLsbD_twoPow, hcode, (isError_iff_code st).mp herr, eq_comm]
  · have hbit : errlogBit st = 0 := if_neg herr
    simp [hbit, mt (isError_iff_code st).mpr herr]

/-! The errors of the bodies and of construction (43_mutate.md R155, R160; 44_construct.md R185). -/

/-- The two errors a mutator's body can end with. -/
def Status.isBodyError (e : Status) : Prop := e = .errRange ∨ e = .errValidation

theorem Status.isBodyError.ne {e : Status} (h : e.isBodyError) : e ≠ .errIllegal ∧ e ≠ .errNoProfile := by
  obtain rfl | rfl := h <;> decide

/-- Where the body ends with an error it is one of those two, and the frame is as it was. -/
def FailsCleanly (body : Body) : Prop :=
  ∀ f : Frame, (body f).1.isError = true → (body f).1.isBodyError ∧ (body f).2 = f

theorem failsCleanly_ok (pack : Frame → Frame) : FailsCleanly fun f => (.ok, pack f) := fun _ herr => nomatch herr

/-- A closed gate is no error. -/
theorem FailsCleanly.gated {body : Body} (h : FailsCleanly body) (can : Frame → Bool) :
    FailsCleanly (gated can body) := by
  intro f
  cases hcan : can f with
  | true => rw [gated_true hcan]; exact h f
  | false => rw [gated_false hcan]; exact fun herr => nomatch herr

/-- A check before the rest of a body, answered with an error of a body. -/
theorem FailsCleanly.guarded {body : Body} (h : FailsCleanly body) {e : Status} (he : e.isBodyError)
    (bad : Frame → Prop) [DecidablePred bad] : FailsCleanly fun f => if bad f then (e, f) else body f := by
  intro f
  by_cases hbad : bad f
  · simp [hbad, he]
  · simpa [hbad] using h f

theorem failsCleanly_bodySetDuration (n : Word) : FailsCleanly (bodySetDuration n) :=
  ((failsCleanly_ok _).guarded (.inl rfl) _).gated _

theorem failsCleanly_bodySetSchedule (n : Word) : FailsCleanly (bodySetSchedule n) :=
  ((failsCleanly_ok _).guarded (.inl rfl) _).gated _

theorem failsCleanly_bodySetSchedEn (v : Bool) : FailsCleanly (bodySetSchedEn v) := failsCleanly_ok _

theorem failsCleanly_bodySetAkw (v : Bool) : FailsCleanly (bodySetAkw v) := (failsCleanly_ok _).gated _

theorem failsCleanly_bodySetRiceId (n : Word) : FailsCleanly (bodySetRiceId n) := (failsCleanly_ok _).gated _

theorem failsCleanly_bodySetTaste (n : Word) : FailsCleanly (bodySetTaste n) :=
  ((failsCleanly_ok _).gated _).guarded (.inr rfl) _

/-- A step of construction fails only with its body's error. -/
theorem FailsCleanly.isBodyError_of_optionStep {body : Body} (h : FailsCleanly body) {wanted : Bool} {bit : BitVec 4}
    {b : Built} {e : Status} (hstep : optionStep wanted bit body b = .error e) : e.isBodyError := by
  obtain ⟨-, hok⟩ | ⟨-, herr, hfail⟩ | ⟨-, -, hok⟩ | ⟨-, -, hok⟩ := optionStep_cases wanted bit body b
  · exact nomatch hok.symm.trans hstep
  · obtain rfl := Except.error.inj (hfail.symm.trans hstep)
    exact (h b.1 herr).1
  · exact nomatch hok.symm.trans hstep
  · exact nomatch hok.symm.trans hstep

/-- A sequence fails in its first part or in its second. -/
theorem error_or_of_bind_error {ε α β : Type} {x : Except ε α} {k : α → Except ε β} {e : ε}
    (h : x.bind k = .error e) : x = .error e ∨ ∃ a, k a = .error e := by
  cases x with
  | error e' => exact .inl (congrArg _ (Except.error.inj h))
  | ok a => exact .inr ⟨a, h⟩

/-- Construction fails only with an error of one of its four bodies (R185). -/
theorem isBodyError_of_construct {g : Frame} {o : Options} {e : Status} (h : construct g o = .error e) :
    e.isBodyError := by
  obtain hdur | ⟨_, h⟩ := error_or_of_bind_error h
  · exact (failsCleanly_bodySetDuration _).isBodyError_of_optionStep hdur
  obtain hsched | ⟨_, h⟩ := error_or_of_bind_error h
  · exact (failsCleanly_bodySetSchedule _).isBodyError_of_optionStep hsched
  obtain hakw | ⟨_, htaste⟩ := error_or_of_bind_error h
  · exact (failsCleanly_bodySetAkw _).isBodyError_of_optionStep hakw
  · exact (failsCleanly_bodySetTaste _).isBodyError_of_optionStep htaste

/-! An answer that is an error (R223). -/

/-- What a failed command leaves beside its response: `LOAD` has cleared the staging state, `LOAD_OPT` the options too. -/
def errorBase (i : Instr) (s : State) : State :=
  match i with
  | .load => clearStaging s
  | .loadOpt => clearOptions (clearStaging s)
  | _ => s

theorem errorBase_of_ne {i : Instr} (hload : i ≠ .load) (hloadOpt : i ≠ .loadOpt) (s : State) : errorBase i s = s := by
  unfold errorBase
  split
  · contradiction
  · contradiction
  · rfl

/-- The registers that no error changes. -/
theorem errorBase_frame (i : Instr) (s : State) :
    (errorBase i s).f = s.f ∧ (errorBase i s).valid = s.valid ∧ (errorBase i s).crc = s.crc ∧
      (errorBase i s).ibuf = s.ibuf ∧ (errorBase i s).pending = s.pending := by
  unfold errorBase
  split <;> simp

/-- An answer of the state `s` that, where it is an error, is a response over `base` and nothing else; `ERR_ILLEGAL` and
`ERR_NOPROFILE` come over `s` itself. -/
def ErrorLeaves (base s : State) (a : Answer) : Prop :=
  ∀ t : State, a = .next t → t.status.isError = true →
    ∃ e : Status, t = respond e 0 base ∧ (e = .errIllegal ∨ e = .errNoProfile → base = s)

theorem errorLeaves_ok {base s u : State} {r : Word} : ErrorLeaves base s (.next (respond .ok r u)) := by
  rintro _ ⟨⟩ herr
  exact nomatch herr

theorem errorLeaves_respond {e : Status} {s : State} : ErrorLeaves s s (.next (respond e 0 s)) := by
  rintro _ ⟨⟩ -
  exact ⟨e, rfl, fun _ => rfl⟩

/-- An error other than `ERR_ILLEGAL` and `ERR_NOPROFILE` may come over another state. -/
theorem errorLeaves_respond_of_ne {e : Status} {base s : State} (he : e ≠ .errIllegal ∧ e ≠ .errNoProfile) :
    ErrorLeaves base s (.next (respond e 0 base)) := by
  rintro _ ⟨⟩ -
  exact ⟨e, rfl, fun h => (h.elim he.1 he.2).elim⟩

/-- A command that reads the frame fails only without a profile (42_extract.md R126). -/
theorem errorLeaves_readFrame {i : Instr} {value : Frame → Word} {s : State} (hread : exec i s = readFrame value s) :
    ErrorLeaves s s (exec i s) := by
  rw [hread]
  obtain ⟨-, h⟩ | ⟨-, h⟩ := readFrame_cases value s <;> rw [h]
  · exact errorLeaves_ok
  · exact errorLeaves_respond

/-- A mutator that fails writes back the frame it found (43_mutate.md R151). -/
theorem errorLeaves_mutate {i : Instr} {body : Body} {s : State} (hmutate : exec i s = mutate body s)
    (hbody : FailsCleanly body) : ErrorLeaves s s (exec i s) := by
  rw [hmutate]
  obtain ⟨-, h⟩ | ⟨-, h⟩ := mutate_cases body s <;> rw [h]
  · rintro _ ⟨⟩ herr
    exact ⟨(body s.f).1, by rw [(hbody s.f herr).2], fun _ => rfl⟩
  · exact errorLeaves_respond

theorem errorLeaves_serialize (s : State) : ErrorLeaves s s (exec .serialize s) := by
  cases hvalid : s.valid with
  | true => rw [exec_serialize_of_valid hvalid]; exact errorLeaves_ok
  | false => rw [exec_serialize_of_noProfile hvalid]; exact errorLeaves_respond

/-- The read of an offset above 21 is illegal (42_extract.md R145). -/
theorem errorLeaves_readByte (k : BitVec 5) (s : State) : ErrorLeaves s s (exec (.readByte k) s) := by
  by_cases hk : k.toNat < 22
  · exact errorLeaves_readFrame (exec_readByte hk s)
  · rw [show exec (.readByte k) s = answerIllegal s from dif_neg hk]; exact errorLeaves_respond

/-- The parse never answers `ERR_ILLEGAL` or `ERR_NOPROFILE` (41_load.md R102). -/
theorem parseVerdict_ne (n r : Half) : parseVerdict n r ≠ .errIllegal ∧ parseVerdict n r ≠ .errNoProfile := by
  obtain ⟨-, h⟩ | ⟨-, -, h⟩ | ⟨-, -, -, h⟩ | ⟨-, -, h⟩ := parseVerdict_cases n r <;> rw [h] <;> decide

theorem errorLeaves_load (s : State) : ErrorLeaves (clearStaging s) s (exec .load s) := by
  by_cases hverdict : parseVerdict s.ilen s.icrc = .ok
  · rw [exec_load_of_ok hverdict]; exact errorLeaves_ok
  · rw [exec_load_of_ne_ok rfl hverdict]; exact errorLeaves_respond_of_ne (parseVerdict_ne ..)

/-- A failed parse and a failed construction answer over the cleared state alike (44_construct.md R186). -/
theorem errorLeaves_loadOpt (s : State) : ErrorLeaves (clearOptions (clearStaging s)) s (exec .loadOpt s) := by
  show ErrorLeaves _ s (execLoadOpt s)
  unfold execLoadOpt
  split
  · split
    · exact errorLeaves_ok
    · next hconstruct => exact errorLeaves_respond_of_ne (isBodyError_of_construct hconstruct).ne
  · exact errorLeaves_respond_of_ne (parseVerdict_ne ..)

/-- Every command that fails leaves the response over `errorBase`: the commands that always succeed, the reads, the
mutators and the four others. -/
theorem errorLeaves_exec (i : Instr) (s : State) : ErrorLeaves (errorBase i s) s (exec i s) :=
  match i with
  | .nop | .crcClear | .crcFeed _ | .crcRead | .crcCheck | .inClear | .inByte _ => errorLeaves_ok
  | .optClear | .optDuration _ | .optSchedule _ | .optAkw _ | .optTaste _ => errorLeaves_ok
  | .getDevtype => errorLeaves_readFrame (exec_getDevtype s)
  | .getSubtype => errorLeaves_readFrame (exec_getSubtype s)
  | .getMenuIndex => errorLeaves_readFrame (exec_getMenuIndex s)
  | .getMenuId => errorLeaves_readFrame (exec_getMenuId s)
  | .getFlags => errorLeaves_readFrame (exec_getFlags s)
  | .getDuration => errorLeaves_readFrame (exec_getDuration s)
  | .getMaxTime => errorLeaves_readFrame (exec_getMaxTime s)
  | .getMinTime => errorLeaves_readFrame (exec_getMinTime s)
  | .getSchedule => errorLeaves_readFrame (exec_getSchedule s)
  | .getSchedEn => errorLeaves_readFrame (exec_getSchedEn s)
  | .getAkw => errorLeaves_readFrame (exec_getAkw s)
  | .getRiceId => errorLeaves_readFrame (exec_getRiceId s)
  | .getTaste => errorLeaves_readFrame (exec_getTaste s)
  | .getCaps => errorLeaves_readFrame (exec_getCaps s)
  | .getTrailer => errorLeaves_readFrame (exec_getTrailer s)
  | .setDuration n => errorLeaves_mutate (exec_setDuration n s) (failsCleanly_bodySetDuration n)
  | .setSchedule n => errorLeaves_mutate (exec_setSchedule n s) (failsCleanly_bodySetSchedule n)
  | .setSchedEn v => errorLeaves_mutate (exec_setSchedEn v s) (failsCleanly_bodySetSchedEn v)
  | .setAkw v => errorLeaves_mutate (exec_setAkw v s) (failsCleanly_bodySetAkw v)
  | .setRiceId n => errorLeaves_mutate (exec_setRiceId n s) (failsCleanly_bodySetRiceId n)
  | .setTaste n => errorLeaves_mutate (exec_setTaste n s) (failsCleanly_bodySetTaste n)
  | .readByte k => errorLeaves_readByte k s
  | .serialize => errorLeaves_serialize s
  | .load => errorLeaves_load s
  | .loadOpt => errorLeaves_loadOpt s

/-- A command that ends with `ERR_ILLEGAL` or `ERR_NOPROFILE` gives its response and nothing else. -/
theorem sameButResponse_of_illegal_or_noProfile {i : Instr} {s t : State} (h : exec i s = .next t)
    (hst : t.status = .errIllegal ∨ t.status = .errNoProfile) : sameButResponse s t := by
  have herr : t.status.isError = true := by obtain hst | hst := hst <;> rw [hst] <;> rfl
  obtain ⟨e, rfl, hbase⟩ := errorLeaves_exec i s t h herr
  rw [hbase hst]
  exact sameButResponse_respond e 0 s

/-- A word that ends with `ERR_ILLEGAL`, refused by the decoder or by its command, likewise (30_encoding.md R64). -/
theorem sameButResponse_of_answerWord_illegal {w : CmdWord} {s t : State} (h : answerWord w s = .next t)
    (hst : t.status = .errIllegal) : sameButResponse s t := by
  cases hdecode : decode w with
  | ok i =>
    rw [answerWord_of_decode hdecode] at h
    exact sameButResponse_of_illegal_or_noProfile h (.inl hst)
  | error e =>
    rw [answerWord_of_illegal hdecode] at h
    obtain rfl := Host.Outcome.next.inj h
    exact sameButResponse_respond .errIllegal 0 s

end Sys2Proof.Machine

open Sys2Proof Sys2Proof.Machine

/-- Settles O19: the response as it is defined, its sticky bit by `getLsbD_errlogBit`, and the codes one by one. -/
theorem respondWritesOnlyTheResponse : Obligations.RespondWritesOnlyTheResponse := by
  refine ⟨fun st r s => ⟨sameButResponse_respond st r s, rfl, ?_, rfl, fun k _ => ?_⟩, rfl, code_le_eight⟩
  · simp only [respond_result, isError_iff_code, ge_iff_le]
  · rw [respond_errlog, BitVec.getLsbD_or, getLsbD_errlogBit]

/-- Settles O21: a failed command leaves its response over `errorBase`, which keeps the frame, `VALID`, the CRC and the
staged bytes, and which is the state before for every command but the two loads. -/
theorem errorsLeaveTheRestAlone : Obligations.ErrorsLeaveTheRestAlone := by
  refine ⟨fun w s t => sameButResponse_of_answerWord_illegal, fun i s t h hcode => ?_⟩
  have hfatal := sameButResponse_of_illegal_or_noProfile h
  obtain ⟨e, rfl, -⟩ := errorLeaves_exec i s t h ((isError_iff_code _).mpr hcode)
  obtain ⟨hf, hvalid, hcrc, hibuf, hpending⟩ := errorBase_frame i s
  refine ⟨hf, hvalid, hcrc, hibuf, by simp, hpending, fun hload hloadOpt => ?_, ?_, ?_, hfatal⟩
  · rw [errorBase_of_ne hload hloadOpt]; exact sameButResponse_respond e 0 s
  · rintro rfl; exact sameButResponse_respond e 0 _
  · rintro rfl; exact sameButResponse_respond e 0 _
end

section
/-! PROOF. Command words (30_encoding.md R61 to R65): decoding the word of a command, the command of a decoded word, the
rows of the opcode table, and the step that runs a word. -/

namespace Sys2Proof

/-! Decoding the fields of a well-formed command, form by form (R62). -/

theorem formByte_setWidth (mk : Byte → Instr) (b : Byte) : formByte mk (b.setWidth 32) = .ok (mk b) := by
  have hb := b.isLt
  have harg : (b.setWidth 32).toNat = b.toNat := by rw [BitVec.toNat_setWidth, Nat.mod_eq_of_lt (by omega)]
  rw [formByte_eq, harg, if_pos hb, BitVec.ofNat_toNat, BitVec.setWidth_eq]

theorem formBool_ite (mk : Bool → Instr) (v : Bool) : formBool mk (if v then 1 else 0) = .ok (mk v) := by
  cases v <;> rfl

theorem formOffset_setWidth (mk : BitVec 5 → Instr) {k : BitVec 5} (hk : k.toNat ≤ 21) :
    formOffset mk (k.setWidth 32) = .ok (mk k) := by
  have harg : (k.setWidth 32).toNat = k.toNat := by rw [BitVec.toNat_setWidth, Nat.mod_eq_of_lt (by omega)]
  rw [formOffset_eq, harg, if_pos (Nat.lt_succ_of_le hk), BitVec.ofNat_toNat, BitVec.setWidth_eq]

/-- The opcode map reads a well-formed command from its own opcode and argument. -/
theorem decodeFields_opcode_arg {i : Instr} (hwf : i.wellFormed = true) : decodeFields i.opcode i.arg = .ok i :=
  match i with
  | .nop | .crcClear | .crcRead | .crcCheck | .inClear | .load | .optClear | .loadOpt | .serialize => rfl
  | .getDevtype | .getSubtype | .getMenuIndex | .getMenuId | .getFlags | .getDuration | .getMaxTime | .getMinTime
  | .getSchedule | .getSchedEn | .getAkw | .getRiceId | .getTaste | .getCaps | .getTrailer => rfl
  | .crcFeed b => formByte_setWidth .crcFeed b
  | .inByte b => formByte_setWidth .inByte b
  | .readByte _ => formOffset_setWidth .readByte (of_decide_eq_true hwf)
  | .setDuration _ | .setSchedule _ | .setRiceId _ | .setTaste _ | .optDuration _ | .optSchedule _ | .optTaste _ => rfl
  | .setSchedEn v => formBool_ite .setSchedEn v
  | .setAkw v => formBool_ite .setAkw v
  | .optAkw v => formBool_ite .optAkw v

theorem decode_encode {i : Instr} (hwf : i.wellFormed = true) : decode (encode i) = .ok i := by
  rw [encode, Machine.decode_commandWord, decodeFields_opcode_arg hwf]

/-! The fields of a decoded command, form by form (R64 (b): no bit of a legal word is dropped). -/

/-- A well-formed command with the given opcode, as a number, and the given argument. -/
def Instr.HasFields (i : Instr) (opcode : Nat) (arg : Word) : Prop :=
  i.wellFormed = true ∧ i.opcode.toNat = opcode ∧ i.arg = arg

theorem hasFields_of_formNone {opcode : Nat} {arg : Word} {i j : Instr} (hj : j.HasFields opcode 0)
    (h : formNone j arg = .ok i) : i.HasFields opcode arg := by
  unfold formNone at h
  split at h
  · next harg => obtain rfl := Except.ok.inj h; rwa [harg]
  · exact nomatch h

theorem hasFields_of_formByte {opcode : Nat} {mk : Byte → Instr} {arg : Word} {i : Instr}
    (hmk : ∀ b, (mk b).HasFields opcode (b.setWidth 32)) (h : formByte mk arg = .ok i) : i.HasFields opcode arg := by
  rw [formByte_eq] at h
  split at h
  · next harg =>
    have hback : (BitVec.ofNat 8 arg.toNat).setWidth 32 = arg := by
      apply BitVec.eq_of_toNat_eq
      simp only [BitVec.toNat_setWidth, BitVec.toNat_ofNat]
      omega
    obtain rfl := Except.ok.inj h
    simpa only [hback] using hmk (BitVec.ofNat 8 arg.toNat)
  · exact nomatch h

theorem hasFields_of_formBool {opcode : Nat} {mk : Bool → Instr} {arg : Word} {i : Instr}
    (hmk : ∀ v : Bool, (mk v).HasFields opcode (if v then 1 else 0)) (h : formBool mk arg = .ok i) :
    i.HasFields opcode arg := by
  rw [formBool_eq] at h
  split at h
  · next harg =>
    have hback : (if decide (arg.toNat = 1) then 1 else 0 : Word) = arg := by
      apply BitVec.eq_of_toNat_eq
      obtain h0 | h1 := Nat.le_one_iff_eq_zero_or_eq_one.mp harg
      · simp [h0]
      · simp [h1]
    obtain rfl := Except.ok.inj h
    simpa only [hback] using hmk (decide (arg.toNat = 1))
  · exact nomatch h

theorem hasFields_of_formU32 {opcode : Nat} {mk : Word → Instr} {arg : Word} {i : Instr}
    (hmk : (mk arg).HasFields opcode arg) (h : formU32 mk arg = .ok i) : i.HasFields opcode arg := by
  obtain rfl := Except.ok.inj h
  exact hmk

theorem hasFields_of_formField {arg : Word} {i : Instr} (h : formField arg = .ok i) : i.HasFields 0x20 arg := by
  unfold formField at h
  split at h
  case h_16 => exact nomatch h
  all_goals
    next hid =>
      obtain rfl := Except.ok.inj h
      exact ⟨rfl, rfl, BitVec.eq_of_toNat_eq hid.symm⟩

theorem hasFields_of_formOffset {arg : Word} {i : Instr} (h : formOffset .readByte arg = .ok i) :
    i.HasFields 0x21 arg := by
  rw [formOffset_eq] at h
  split at h
  · next harg =>
    obtain rfl := Except.ok.inj h
    refine ⟨?_, rfl, BitVec.eq_of_toNat_eq ?_⟩
    · simp only [Instr.wellFormed, BitVec.toNat_ofNat, Config.offsetMax, decide_eq_true_iff]
      omega
    · simp only [Instr.arg, BitVec.toNat_setWidth, BitVec.toNat_ofNat]
      omega
  · exact nomatch h

/-- The command the opcode map reads has the opcode and the argument it was read from. -/
theorem hasFields_of_decodeFields {opcode : Byte} {arg : Word} {i : Instr} (h : decodeFields opcode arg = .ok i) :
    i.HasFields opcode.toNat arg := by
  unfold decodeFields at h
  split at h
  case h_24 => exact nomatch h -- no row of the map
  all_goals
    rename_i hop
    rw [hop]
  case h_1 | h_2 | h_4 | h_5 | h_6 | h_8 | h_17 | h_22 | h_23 => exact hasFields_of_formNone ⟨rfl, rfl, rfl⟩ h
  case h_3 | h_7 => exact hasFields_of_formByte (fun _ => ⟨rfl, rfl, rfl⟩) h
  case h_9 => exact hasFields_of_formField h
  case h_10 => exact hasFields_of_formOffset h
  case h_13 | h_14 | h_20 => exact hasFields_of_formBool (fun _ => ⟨rfl, rfl, rfl⟩) h
  case h_11 | h_12 | h_15 | h_16 | h_18 | h_19 | h_21 => exact hasFields_of_formU32 ⟨rfl, rfl, rfl⟩ h

/-- A decoded command is well formed and its word is the word decoded. -/
theorem encode_of_decode {w : CmdWord} {i : Instr} (h : decode w = .ok i) :
    i.wellFormed = true ∧ encode i = w := by
  obtain ⟨hwf, hop, harg⟩ := hasFields_of_decodeFields h
  exact ⟨hwf, by rw [encode, BitVec.eq_of_toNat_eq hop, harg, commandWord_fields]⟩

/-! The rows of the opcode table (R63). -/

/-- A mask and a pattern that fix the opcode and some bits of the argument. -/
theorem and_eq_commandWord_iff (w : CmdWord) (opcode : Byte) (m p : Word) :
    w &&& commandWord 0xFF m = commandWord opcode p ↔ opcodeOf w = opcode ∧ argOf w &&& m = p := by
  have hand : w &&& commandWord 0xFF m = commandWord (opcodeOf w) (argOf w &&& m) := by
    conv_lhs => rw [← commandWord_fields w]
    have hop : opcodeOf w &&& 0xFF = opcodeOf w := BitVec.and_allOnes
    rw [commandWord, commandWord, BitVec.and_append, hop, commandWord]
  rw [hand]
  constructor
  · intro h
    exact ⟨by rw [← opcodeOf_commandWord (opcodeOf w) (argOf w &&& m), h, opcodeOf_commandWord],
      by rw [← argOf_commandWord (opcodeOf w) (argOf w &&& m), h, argOf_commandWord]⟩
  · rintro ⟨hop, harg⟩
    rw [hop, harg]

/-- An argument with no bit under the mask of the bits from `k` up is a number below `2 ^ k`. -/
theorem and_highMask_eq_zero_iff (arg : Word) (k : Nat) :
    arg &&& (BitVec.allOnes 32 <<< k) = 0 ↔ arg.toNat < 2 ^ k := by
  constructor
  · intro h
    refine Nat.lt_pow_two_of_testBit _ fun i hi => ?_
    by_cases h32 : i < 32
    · have hmask : (BitVec.allOnes 32 <<< k).getLsbD i = true := by
        rw [BitVec.getLsbD_shiftLeft, BitVec.getLsbD_allOnes]
        simp [h32, Nat.not_lt.mpr hi, Nat.lt_of_le_of_lt (Nat.sub_le i k) h32]
      have hbit : (arg &&& BitVec.allOnes 32 <<< k).getLsbD i = false := by rw [h]; exact BitVec.getLsbD_zero
      rwa [BitVec.getLsbD_and, hmask, Bool.and_true] at hbit
    · exact arg.getLsbD_of_ge i (Nat.not_lt.mp h32)
  · intro h
    ext i hi
    by_cases hk : i < k
    · simp [hk]
    · have hbit := Nat.testBit_lt_two_pow (Nat.lt_of_lt_of_le h (Nat.pow_le_pow_right (by decide) (Nat.not_lt.mp hk)))
      simp [BitVec.getElem_eq_testBit_toNat, hbit]

/-- The words of a command's row, and what a word of the row decodes to: the two directions of O10 for one row. -/
def Instr.RowDecodes (j : Instr) : Prop :=
  (j.wellFormed = true → encode j &&& j.tableRow.mask = j.tableRow.pattern) ∧
  ∀ w : CmdWord, w &&& j.tableRow.mask = j.tableRow.pattern → (argOf w).toNat ≤ 21 ∨ j.opcode ≠ 0x21 →
    ∃ i, decode w = .ok i ∧ i.tableRow = j.tableRow

/-- A row of one word. -/
theorem rowDecodes_of_single {j : Instr} (hwf : j.wellFormed = true) (hrow : j.tableRow = ⟨encode j, BitVec.allOnes 40⟩) :
    j.RowDecodes := by
  refine ⟨fun _ => by rw [hrow]; exact BitVec.and_allOnes, fun w hw _ => ⟨j, ?_, rfl⟩⟩
  have hw' : w = encode j := by rwa [hrow, BitVec.and_allOnes] at hw
  rw [hw', decode_encode hwf]

/-- A row whose mask leaves the argument some low bits: the opcode decodes every argument within them. -/
theorem rowDecodes_of_lowBits {j : Instr} {opcode : Byte} {k : Nat} (hopcode : j.opcode = opcode)
    (hrow : j.tableRow = ⟨commandWord opcode 0, commandWord 0xFF (BitVec.allOnes 32 <<< k)⟩)
    (hj : j.wellFormed = true → j.arg.toNat < 2 ^ k)
    (hdecode : ∀ arg : Word, arg.toNat < 2 ^ k → arg.toNat ≤ 21 ∨ j.opcode ≠ 0x21 →
      ∃ i, decodeFields opcode arg = .ok i ∧ i.tableRow = j.tableRow) : j.RowDecodes := by
  subst hopcode
  have hmem (w : CmdWord) : w &&& j.tableRow.mask = j.tableRow.pattern ↔
      opcodeOf w = j.opcode ∧ (argOf w).toNat < 2 ^ k := by
    rw [hrow, and_eq_commandWord_iff, and_highMask_eq_zero_iff]
  refine ⟨fun hwf => (hmem _).mpr ⟨opcodeOf_commandWord .., ?_⟩, fun w hw harg => ?_⟩
  · rw [encode, argOf_commandWord]
    exact hj hwf
  · obtain ⟨hop, hlow⟩ := (hmem w).mp hw
    rw [decode, hop]
    exact hdecode _ hlow harg

theorem rowDecodes_of_formByte {mk : Byte → Instr} {b : Byte} (opcode : Byte) (hopcode : (mk b).opcode = opcode)
    (harg : (mk b).arg = b.setWidth 32)
    (hrow : (mk b).tableRow = ⟨commandWord opcode 0, 0xFFFFFFFF00⟩)
    (hrows : ∀ e, (mk e).tableRow = (mk b).tableRow)
    (hdecode : ∀ arg, decodeFields opcode arg = formByte mk arg) : (mk b).RowDecodes := by
  refine rowDecodes_of_lowBits (k := 8) hopcode hrow (fun _ => ?_) fun arg hlow _ => ⟨_, ?_, hrows (BitVec.ofNat 8 arg.toNat)⟩
  · have hb := b.isLt
    rw [harg, BitVec.toNat_setWidth]
    omega
  · exact (hdecode arg).trans ((formByte_eq mk arg).trans (if_pos hlow))

theorem rowDecodes_of_formBool {mk : Bool → Instr} {v : Bool} (opcode : Byte) (hopcode : (mk v).opcode = opcode)
    (harg : (mk v).arg = if v then 1 else 0)
    (hrow : (mk v).tableRow = ⟨commandWord opcode 0, 0xFFFFFFFFFE⟩)
    (hrows : ∀ e, (mk e).tableRow = (mk v).tableRow)
    (hdecode : ∀ arg, decodeFields opcode arg = formBool mk arg) : (mk v).RowDecodes := by
  refine rowDecodes_of_lowBits (k := 1) hopcode hrow (fun _ => ?_)
    fun arg hlow _ => ⟨_, ?_, hrows (decide (arg.toNat = 1))⟩
  · rw [harg]
    cases v <;> decide
  · rw [hdecode, formBool_eq, if_pos (Nat.le_of_lt_succ hlow)]

theorem rowDecodes_of_formU32 {mk : Word → Instr} {n : Word} (opcode : Byte) (hopcode : (mk n).opcode = opcode)
    (hrow : (mk n).tableRow = ⟨commandWord opcode 0, 0xFF00000000⟩)
    (hrows : ∀ e, (mk e).tableRow = (mk n).tableRow)
    (hdecode : ∀ arg, decodeFields opcode arg = formU32 mk arg) : (mk n).RowDecodes :=
  rowDecodes_of_lowBits (k := 32) hopcode hrow (fun _ => (mk n).arg.isLt) fun arg _ _ => ⟨mk arg, hdecode arg, hrows arg⟩

theorem rowDecodes_readByte (k : BitVec 5) : (Instr.readByte k).RowDecodes := by
  refine rowDecodes_of_lowBits (opcode := 0x21) (k := 5) rfl rfl (fun _ => ?_) fun arg _ hbound =>
    ⟨.readByte (BitVec.ofNat 5 arg.toNat), ?_, rfl⟩
  · have hk := k.isLt
    simp only [Instr.arg, BitVec.toNat_setWidth]
    omega
  · have harg : arg.toNat ≤ 21 := hbound.elim id fun h => absurd rfl h
    exact (formOffset_eq .readByte arg).trans (if_pos (Nat.lt_succ_of_le harg))

theorem rowDecodes (j : Instr) : j.RowDecodes :=
  match j with
  | .nop | .crcClear | .crcRead | .crcCheck | .inClear | .load | .optClear | .loadOpt | .serialize =>
    rowDecodes_of_single rfl rfl
  | .getDevtype | .getSubtype | .getMenuIndex | .getMenuId | .getFlags | .getDuration | .getMaxTime | .getMinTime
  | .getSchedule | .getSchedEn | .getAkw | .getRiceId | .getTaste | .getCaps | .getTrailer =>
    rowDecodes_of_single rfl rfl
  | .crcFeed _ => rowDecodes_of_formByte 0x02 rfl rfl rfl (fun _ => rfl) fun _ => rfl
  | .inByte _ => rowDecodes_of_formByte 0x11 rfl rfl rfl (fun _ => rfl) fun _ => rfl
  | .readByte k => rowDecodes_readByte k
  | .setDuration _ => rowDecodes_of_formU32 0x30 rfl rfl (fun _ => rfl) fun _ => rfl
  | .setSchedule _ => rowDecodes_of_formU32 0x31 rfl rfl (fun _ => rfl) fun _ => rfl
  | .setRiceId _ => rowDecodes_of_formU32 0x34 rfl rfl (fun _ => rfl) fun _ => rfl
  | .setTaste _ => rowDecodes_of_formU32 0x35 rfl rfl (fun _ => rfl) fun _ => rfl
  | .optDuration _ => rowDecodes_of_formU32 0x41 rfl rfl (fun _ => rfl) fun _ => rfl
  | .optSchedule _ => rowDecodes_of_formU32 0x42 rfl rfl (fun _ => rfl) fun _ => rfl
  | .optTaste _ => rowDecodes_of_formU32 0x44 rfl rfl (fun _ => rfl) fun _ => rfl
  | .setSchedEn _ => rowDecodes_of_formBool 0x32 rfl rfl rfl (fun _ => rfl) fun _ => rfl
  | .setAkw _ => rowDecodes_of_formBool 0x33 rfl rfl rfl (fun _ => rfl) fun _ => rfl
  | .optAkw _ => rowDecodes_of_formBool 0x43 rfl rfl rfl (fun _ => rfl) fun _ => rfl

/-- A word as the opcode table numbers it, read back. -/
theorem tableWord_toNat (w : CmdWord) : tableWord 40 w.toNat = w := by
  rw [tableWord, Nat.mod_eq_of_lt w.isLt, BitVec.ofNat_toNat, BitVec.setWidth_eq]

end Sys2Proof

open Sys2Proof Sys2Proof.Machine

/-- Settles O7: the opcode map reads each command from its fields, form by form. -/
theorem decodeOfEncodeIsTheCommand : Obligations.DecodeOfEncodeIsTheCommand := fun _ => decode_encode

/-- Settles O8: a form that accepts an argument keeps it whole in the operand. -/
theorem encodeOfDecodeIsTheWord : Obligations.EncodeOfDecodeIsTheWord := fun _ _ => encode_of_decode

/-- Settles O10: a row fixes the opcode and the argument's bits under the mask, which are those its form wants 0. -/
theorem legalWordsAreTheRowsOfTheTable : Obligations.LegalWordsAreTheRowsOfTheTable := by
  refine ⟨fun w i h => ?_, fun w j hw harg => (rowDecodes j).2 w hw harg⟩
  obtain ⟨hwf, rfl⟩ := encode_of_decode h
  exact (rowDecodes i).1 hwf

/-- Settles O5: the step takes the word off the list and answers it, and the word placed is the command's. -/
theorem stepRunsTheDecodedCommand : Obligations.StepRunsTheDecodedCommand := by
  refine ⟨fun s w rest i hp hi => ?_, fun s => step_of_waiting, fun s i hwf => ?_⟩
  · rw [step_of_command hp, answerWord_of_decode hi]
  · rw [State.withFetchWord, tableWord_toNat, step_of_command rfl, answerWord_of_decode (decode_encode hwf)]
    rfl

/-- Settles O11: each word is a closed term, and its decoding is evaluated. -/
theorem sampleWordsDecode : Obligations.SampleWordsDecode := by
  unfold Obligations.SampleWordsDecode
  decide
end

section
/-! PROOF. Construction and `LOAD_OPT` (44_construct.md R185, R186): the outcomes of `LOAD_OPT`, what a step of construction
keeps, and construction as the mutator commands of the provided options. -/

namespace Sys2Proof.Machine

/-! The outcomes of `LOAD_OPT` (R186). -/

/-- What `LOAD_OPT` leaves of the staging and the option registers in every case. -/
abbrev clearInput (s : State) : State := clearOptions (clearStaging s)

theorem exec_loadOpt_of_badParse {s : State} {e : Status} (h : parseVerdict s.ilen s.icrc = e) (he : e ≠ .ok) :
    exec .loadOpt s = .next (respond e 0 (clearInput s)) := by
  subst h
  exact if_neg he

theorem exec_loadOpt_of_error {s : State} {e : Status} (h : parseVerdict s.ilen s.icrc = .ok)
    (hconstruct : construct s.ibuf (stagedOptions s) = .error e) :
    exec .loadOpt s = .next (respond e 0 (clearInput s)) := by
  show execLoadOpt s = _
  simp only [execLoadOpt, h, hconstruct, if_true]

theorem exec_loadOpt_of_ok {s : State} {b : Built} (h : parseVerdict s.ilen s.icrc = .ok)
    (hconstruct : construct s.ibuf (stagedOptions s) = .ok b) :
    exec .loadOpt s = .next (respond .ok (b.2.setWidth 32) (commitFrame b.1 (clearInput s))) := by
  show execLoadOpt s = _
  simp only [execLoadOpt, h, hconstruct, if_true]

/-- All `LOAD_OPT` can do. -/
theorem exec_loadOpt_cases (s : State) :
    (∃ e, e ≠ .ok ∧ parseVerdict s.ilen s.icrc = e ∧ exec .loadOpt s = .next (respond e 0 (clearInput s))) ∨
    (∃ e, parseVerdict s.ilen s.icrc = .ok ∧ construct s.ibuf (stagedOptions s) = .error e ∧
      exec .loadOpt s = .next (respond e 0 (clearInput s))) ∨
    (∃ b, parseVerdict s.ilen s.icrc = .ok ∧ construct s.ibuf (stagedOptions s) = .ok b ∧
      exec .loadOpt s = .next (respond .ok (b.2.setWidth 32) (commitFrame b.1 (clearInput s)))) := by
  by_cases h : parseVerdict s.ilen s.icrc = .ok
  · cases hconstruct : construct s.ibuf (stagedOptions s) with
    | error e => exact .inr (.inl ⟨e, h, rfl, exec_loadOpt_of_error h hconstruct⟩)
    | ok b => exact .inr (.inr ⟨b, h, rfl, exec_loadOpt_of_ok h hconstruct⟩)
  · exact .inl ⟨_, h, rfl, exec_loadOpt_of_badParse rfl h⟩

/-! The steps of construction (R185). -/

/-- A step that is not wanted changes nothing. -/
@[simp] theorem optionStep_false (bit : BitVec 4) (body : Body) (b : Built) : optionStep false bit body b = .ok b := rfl

/-- A wanted step whose body does not fail. -/
theorem optionStep_of_not_error {bit : BitVec 4} {body : Body} {b : Built} (h : (body b.1).1.isError = false) :
    optionStep true bit body b = .ok ((body b.1).2, if (body b.1).1 = .ok then b.2 ||| bit else b.2) := by
  simp [optionStep, h]

/-- A step whose body cannot fail on the frame at hand cannot fail. -/
theorem exists_optionStep_ok {wanted : Bool} {bit : BitVec 4} {body : Body} {b : Built}
    (h : wanted = true → (body b.1).1.isError = false) : ∃ b', optionStep wanted bit body b = .ok b' := by
  cases wanted with
  | false => exact ⟨b, rfl⟩
  | true => exact ⟨_, optionStep_of_not_error (h rfl)⟩

/-- A sequence that succeeds has succeeded in both parts. -/
theorem ok_and_ok_of_bind_ok {ε α β : Type} {x : Except ε α} {k : α → Except ε β} {b : β} (h : x.bind k = .ok b) :
    ∃ a, x = .ok a ∧ k a = .ok b := by
  cases x with
  | error e => exact nomatch h
  | ok a => exact ⟨a, rfl, h⟩

/-- Without options construction is the identity, with an empty mask. -/
theorem construct_of_absent {g : Frame} {o : Options} (h : o.present = 0) : construct g o = .ok (g, 0) := by
  simp [construct, scheduleWanted, h, Except.bind]

/-- `OPT_SCHEDULE` within the ceiling cannot be out of range: 1440 minutes are 24 hours (R185). -/
theorem isError_bodySetSchedule_of_le {n : Word} (hn : n.toNat ≤ 1440) (f : Frame) :
    (bodySetSchedule n f).1.isError = false := by
  cases hcan : canSchedule f with
  | false => rw [bodySetSchedule, gated_false hcan]; rfl
  | true => rw [bodySetSchedule_of_fits hcan (by omega)]; rfl

theorem isError_bodySetAkw (v : Bool) (f : Frame) : (bodySetAkw v f).1.isError = false := by
  cases hcan : canAkw f with
  | false => rw [bodySetAkw, gated_false hcan]; rfl
  | true => rw [bodySetAkw, gated_true hcan]; rfl

theorem scheduleWanted_iff (o : Options) (g : Frame) : scheduleWanted o g = true ↔
    o.present.getLsbD 1 = true ∧ duration g < o.sched.toNat ∧ o.sched.toNat ≤ 1440 := by
  simp [scheduleWanted, and_assoc]

/-- Without a duration and a taste construction cannot fail (R185). -/
theorem exists_construct_ok {g : Frame} {o : Options} (hdur : o.present.getLsbD 0 = false)
    (htaste : o.present.getLsbD 3 = false) : ∃ b, construct g o = .ok b := by
  obtain ⟨b2, hsched⟩ := exists_optionStep_ok (bit := 0b0010) (b := (g, 0))
    fun hwanted => isError_bodySetSchedule_of_le ((scheduleWanted_iff o g).mp hwanted).2.2 g
  obtain ⟨b3, hakw⟩ := exists_optionStep_ok (wanted := o.present.getLsbD 2) (bit := 0b0100) (b := b2)
    fun _ => isError_bodySetAkw o.akw b2.1
  refine ⟨b3, ?_⟩
  rw [construct, hdur, htaste, optionStep_false, Except.bind, hsched, Except.bind, hakw]
  rfl

/-! Construction as commands (R185: each step is the mutator command of its option). -/

/-- The command of a provided option on a loaded profile; the status `IGNORED` stands for an option passed over. -/
def optionCommand (wanted : Bool) (body : Body) (s : State) : State :=
  if wanted then respond (body s.f).1 0 { s with f := (body s.f).2 } else { s with status := .ignored }

@[simp] theorem optionCommand_valid (wanted : Bool) (body : Body) (s : State) :
    (optionCommand wanted body s).valid = s.valid := by cases wanted <;> rfl

/-- A provided option runs its mutator command, and an option passed over does nothing. -/
theorem exec_of_optionCommand {p : Prop} [Decidable p] {wanted : Bool} (hwanted : p ↔ wanted = true) {i : Instr}
    {body : Body} {s : State} (hmutate : exec i s = mutate body s) (hvalid : s.valid = true) :
    if p then exec i s = .next (optionCommand wanted body s)
      else optionCommand wanted body s = { s with status := .ignored } := by
  split
  · next hp => rw [hmutate, mutate_valid hvalid, optionCommand, if_pos (hwanted.mp hp)]
  · next hp => exact if_neg (mt hwanted.mpr hp)

/-- A step of construction and the command of its option agree: on the error, or on the frame and the mask bit. -/
theorem optionStep_eq (wanted : Bool) (bit a : BitVec 4) (body : Body) (s : State) :
    optionStep wanted bit body (s.f, a) =
      if (optionCommand wanted body s).status.isError then .error (optionCommand wanted body s).status
      else .ok ((optionCommand wanted body s).f,
        a ||| if (optionCommand wanted body s).status = .ok then bit else 0) := by
  cases wanted with
  | false => simp [optionCommand]
  | true => cases h : (body s.f).1 <;> simp [optionStep, optionCommand, h]

/-- The mask bits of the steps that ended `OK`, as a number. -/
theorem toNat_appliedMask (p q r t : Prop) [Decidable p] [Decidable q] [Decidable r] [Decidable t] :
    ((0 : BitVec 4) ||| (if p then 1 else 0) ||| (if q then 2 else 0) ||| (if r then 4 else 0) |||
      (if t then 8 else 0)).toNat =
      (decide p).toNat + 2 * (decide q).toNat + 4 * (decide r).toNat + 8 * (decide t).toNat := by
  by_cases hp : p <;> by_cases hq : q <;> by_cases hr : r <;> by_cases ht : t <;> simp [hp, hq, hr, ht]

/-- The commands of the four options, each from the state the one before it left. -/
def afterDuration (o : Options) (s : State) : State :=
  optionCommand (o.present.getLsbD 0) (bodySetDuration o.dur) s

def afterSchedule (o : Options) (s : State) : State :=
  optionCommand (scheduleWanted o s.f) (bodySetSchedule o.sched) s

def afterAkw (o : Options) (s : State) : State := optionCommand (o.present.getLsbD 2) (bodySetAkw o.akw) s

def afterTaste (o : Options) (s : State) : State := optionCommand (o.present.getLsbD 3) (bodySetTaste o.taste) s

/-- Neither the schedule step nor the auto-keep-warm step can fail. -/
theorem isError_afterSchedule (o : Options) (s : State) : (afterSchedule o s).status.isError = false := by
  cases hwanted : scheduleWanted o s.f with
  | false => rw [afterSchedule, hwanted]; rfl
  | true =>
    rw [afterSchedule, hwanted]
    exact isError_bodySetSchedule_of_le ((scheduleWanted_iff o s.f).mp hwanted).2.2 s.f

theorem isError_afterAkw (o : Options) (s : State) : (afterAkw o s).status.isError = false := by
  cases hwanted : o.present.getLsbD 2 with
  | false => rw [afterAkw, hwanted]; rfl
  | true => rw [afterAkw, hwanted]; exact isError_bodySetAkw o.akw s.f

/-- Construction from a loaded frame as the commands of its options, in order: it fails with the error of the duration or
of the taste, and else gives the frame they leave and the mask of those that ended `OK`. -/
theorem construct_eq_commands (o : Options) {s s1 s2 s3 s4 : State} (h1 : s1 = afterDuration o s)
    (h2 : s2 = afterSchedule o s1) (h3 : s3 = afterAkw o s2) (h4 : s4 = afterTaste o s3) :
    construct s.f o = if s1.status.isError then .error s1.status else if s4.status.isError then .error s4.status
      else .ok (s4.f, 0 ||| (if s1.status = .ok then 1 else 0) ||| (if s2.status = .ok then 2 else 0) |||
        (if s3.status = .ok then 4 else 0) ||| (if s4.status = .ok then 8 else 0)) := by
  have hnotSched : s2.status.isError = false := h2 ▸ isError_afterSchedule o s1
  have hnotAkw : s3.status.isError = false := h3 ▸ isError_afterAkw o s2
  rw [construct, optionStep_eq, ← afterDuration, ← h1]
  split
  · rfl
  · rw [Except.bind, optionStep_eq, ← afterSchedule, ← h2, hnotSched, if_neg (by decide)]
    rw [Except.bind, optionStep_eq, ← afterAkw, ← h3, hnotAkw, if_neg (by decide)]
    rw [Except.bind, optionStep_eq, ← afterTaste, ← h4]

/-- `LOAD_OPT` of a good input by those commands, from what `LOAD` leaves. -/
theorem exec_loadOpt_eq_commands {s s0 s1 s2 s3 s4 : State} (hparse : parseVerdict s.ilen s.icrc = .ok)
    (h0 : s0.f = s.ibuf) (h1 : s1 = afterDuration (stagedOptions s) s0) (h2 : s2 = afterSchedule (stagedOptions s) s1)
    (h3 : s3 = afterAkw (stagedOptions s) s2) (h4 : s4 = afterTaste (stagedOptions s) s3) :
    ∃ t, exec .loadOpt s = .next t ∧
      (s1.status.isError = true → t.status = s1.status ∧ t.f = s.f ∧ t.valid = s.valid) ∧
      (s1.status.isError = false → s4.status.isError = true → t.status = s4.status ∧ t.f = s.f ∧ t.valid = s.valid) ∧
      (s1.status.isError = false → s4.status.isError = false → t.status = .ok ∧ t.f = s4.f ∧ t.valid = true ∧
        t.result.toNat = (decide (s1.status = .ok)).toNat + 2 * (decide (s2.status = .ok)).toNat +
          4 * (decide (s3.status = .ok)).toNat + 8 * (decide (s4.status = .ok)).toNat) := by
  have hconstruct := construct_eq_commands (stagedOptions s) h1 h2 h3 h4
  rw [h0] at hconstruct
  split at hconstruct
  · next herr1 => exact ⟨_, exec_loadOpt_of_error hparse hconstruct, by simp [herr1]⟩
  · split at hconstruct
    · next hok1 herr4 => exact ⟨_, exec_loadOpt_of_error hparse hconstruct, by simp [hok1, herr4]⟩
    · next hok1 hok4 =>
      refine ⟨_, exec_loadOpt_of_ok hparse hconstruct, by simp [hok1], by simp [hok4], fun _ _ => ⟨rfl, rfl, rfl, ?_⟩⟩
      rw [respond_result, isError_ok, if_neg (by decide), BitVec.toNat_setWidth, ← toNat_appliedMask]
      exact Nat.mod_eq_of_lt (Nat.lt_trans (BitVec.isLt _) (by decide))

end Sys2Proof.Machine

open Sys2Proof Sys2Proof.Machine

/-- Settles O48: the three outcomes, over the cleared staging and option registers. -/
theorem loadOptFollowsItsRule : Obligations.LoadOptFollowsItsRule := by
  refine ⟨?_, fun _ => answerWord_of_formNone rfl⟩
  rintro s _ rfl
  refine ⟨exec_loadOpt_of_badParse rfl, fun e => exec_loadOpt_of_error, fun g a h hconstruct => ?_⟩
  rw [BitVec.ofNat_toNat]
  exact exec_loadOpt_of_ok h hconstruct

/-- Settles O49: construction is followed step by step by the commands of the options; the schedule and the auto-keep-warm
step cannot fail, so an error is that of the duration or, after it, of the taste. -/
theorem loadOptIsLoadThenTheMutators : Obligations.LoadOptIsLoadThenTheMutators := by
  intro s hparse
  let o := stagedOptions s
  let s0 := respond .ok 0 (commitFrame s.ibuf (clearStaging s))
  let s1 := afterDuration o s0
  let s2 := afterSchedule o s1
  let s3 := afterAkw o s2
  let s4 := afterTaste o s3
  have hvalid0 : s0.valid = true := rfl
  have hvalid1 : s1.valid = true := (optionCommand_valid ..).trans hvalid0
  have hvalid2 : s2.valid = true := (optionCommand_valid ..).trans hvalid1
  have hvalid3 : s3.valid = true := (optionCommand_valid ..).trans hvalid2
  obtain ⟨t, ht, hcases⟩ := exec_loadOpt_eq_commands (s0 := s0) (s1 := s1) (s2 := s2) (s3 := s3) (s4 := s4)
    hparse rfl rfl rfl rfl rfl
  exact ⟨s0, s1, s2, s3, s4, t, exec_load_of_ok hparse,
    exec_of_optionCommand Iff.rfl (exec_setDuration ..) hvalid0,
    exec_of_optionCommand (scheduleWanted_iff o s1.f).symm (exec_setSchedule ..) hvalid1,
    exec_of_optionCommand Iff.rfl (exec_setAkw ..) hvalid2,
    exec_of_optionCommand Iff.rfl (exec_setTaste ..) hvalid3, ht, hcases⟩
end

section
/-! PROOF. The read and write sets of 10_state.md R36: the bodies of the mutators byte by byte, the writes of the shared
operations, and for every command the one fact its row says, of which the frame of every command, the sticky error log and
the stale staged bytes are consequences. -/

namespace Sys2Proof.Machine

/-! The bytes of the frame that a frame function reads and writes. -/

/-- Two frames with the same bytes at the offsets `reads`. -/
def AgreeAt (reads : List (Fin 22)) (f f' : Frame) : Prop := ∀ k ∈ reads, f'[k] = f[k]

/-- A function that writes the bytes at the offsets `writes` from those at `reads`, and keeps the others. -/
structure PackLocal (reads writes : List (Fin 22)) (pack : Frame → Frame) : Prop where
  kept : ∀ (f : Frame) (k : Fin 22), k ∉ writes → (pack f)[k] = f[k]
  written : ∀ f f' : Frame, AgreeAt reads f f' → ∀ k ∈ writes, (pack f')[k] = (pack f)[k]

/-- A body whose status depends on the bytes at `reads`, and that writes as `PackLocal` says or keeps the frame. -/
structure BodyLocal (reads writes : List (Fin 22)) (body : Body) : Prop where
  kept : ∀ (f : Frame) (k : Fin 22), k ∉ writes → (body f).2[k] = f[k]
  status : ∀ f f' : Frame, AgreeAt reads f f' → (body f').1 = (body f).1
  written : ∀ f f' : Frame, AgreeAt reads f f' → ∀ k ∈ writes,
    (body f').2[k] = (body f).2[k] ∨ (body f).2[k] = f[k] ∧ (body f').2[k] = f'[k]

theorem packLocal_set {reads : List (Fin 22)} (i : Fin 22) {b : Frame → Byte}
    (hb : ∀ f f', AgreeAt reads f f' → b f' = b f) : PackLocal reads [i] fun f => f.set i (b f) where
  kept f k hk := by
    have hne : i.val ≠ k.val := fun h => hk (by simp [Fin.ext h])
    simp [hne]
  written f f' hagree k hk := by
    obtain rfl := List.mem_singleton.mp hk
    simp [hb f f' hagree]

theorem packLocal_set_set {reads : List (Fin 22)} (i j : Fin 22) {b c : Frame → Byte} (hij : i ≠ j)
    (hb : ∀ f f', AgreeAt reads f f' → b f' = b f) (hc : ∀ f f', AgreeAt reads f f' → c f' = c f) :
    PackLocal reads [i, j] fun f => (f.set i (b f)).set j (c f) where
  kept f k hk := by
    have hi : i.val ≠ k.val := fun h => hk (by simp [Fin.ext h])
    have hj : j.val ≠ k.val := fun h => hk (by simp [Fin.ext h])
    simp [hi, hj]
  written f f' hagree k hk := by
    simp only [List.mem_cons, List.not_mem_nil, or_false] at hk
    have hne : j.val ≠ i.val := fun h => hij (Fin.ext h.symm)
    obtain rfl | rfl := hk
    · simp [hne, hb f f' hagree]
    · simp [hc f f' hagree]

theorem PackLocal.body {reads writes : List (Fin 22)} {pack : Frame → Frame} (h : PackLocal reads writes pack) :
    BodyLocal reads writes fun f => (.ok, pack f) where
  kept := h.kept
  status _ _ _ := rfl
  written f f' hagree k hk := .inl (h.written f f' hagree k hk)

theorem BodyLocal.gated {reads writes : List (Fin 22)} {body : Body} (h : BodyLocal reads writes body)
    {can : Frame → Bool} (hcan : ∀ f f', AgreeAt reads f f' → can f' = can f) :
    BodyLocal reads writes (gated can body) where
  kept f k hk := by
    cases hf : can f with
    | true => rw [gated_true hf]; exact h.kept f k hk
    | false => rw [gated_false hf]
  status f f' hagree := by
    have hf' := hcan f f' hagree
    cases hf : can f with
    | true => rw [gated_true hf, gated_true (hf'.trans hf)]; exact h.status f f' hagree
    | false => rw [gated_false hf, gated_false (hf'.trans hf)]
  written f f' hagree k hk := by
    have hf' := hcan f f' hagree
    cases hf : can f with
    | true => rw [gated_true hf, gated_true (hf'.trans hf)]; exact h.written f f' hagree k hk
    | false => rw [gated_false hf, gated_false (hf'.trans hf)]; exact .inr ⟨rfl, rfl⟩

theorem BodyLocal.guarded {reads writes : List (Fin 22)} {body : Body} (h : BodyLocal reads writes body) (e : Status)
    {bad : Frame → Prop} [DecidablePred bad] (hbad : ∀ f f', AgreeAt reads f f' → (bad f' ↔ bad f)) :
    BodyLocal reads writes fun f => if bad f then (e, f) else body f where
  kept f k hk := by
    split
    · rfl
    · exact h.kept f k hk
  status f f' hagree := by
    simp only [hbad f f' hagree]
    split
    · rfl
    · exact h.status f f' hagree
  written f f' hagree k hk := by
    simp only [hbad f f' hagree]
    split
    · exact .inr ⟨rfl, rfl⟩
    · exact h.written f f' hagree k hk

/-! The six bodies and `SERIALIZE`: their rows of R36 on the bytes of `F`. -/

theorem AgreeAt.canSetDuration {f f' : Frame} (h : AgreeAt [10, 11, 12, 13] f f') :
    canSetDuration f' = canSetDuration f ∧ minTime f' = minTime f ∧ maxTime f' = maxTime f := by
  have h10 : f'[10] = f[10] := h 10 (by decide)
  have h11 : f'[11] = f[11] := h 11 (by decide)
  have h12 : f'[12] = f[12] := h 12 (by decide)
  have h13 : f'[13] = f[13] := h 13 (by decide)
  have hmin : minTime f' = minTime f := by rw [minTime, minTime, h12, h13]
  have hmax : maxTime f' = maxTime f := by rw [maxTime, maxTime, h10, h11]
  exact ⟨by rw [Machine.canSetDuration, Machine.canSetDuration, hmin, hmax], hmin, hmax⟩

theorem AgreeAt.menuId {f f' : Frame} (h : AgreeAt [3, 4, 5, 6] f f') : menuId f' = menuId f := by
  have h3 : f'[3] = f[3] := h 3 (by decide)
  have h4 : f'[4] = f[4] := h 4 (by decide)
  have h5 : f'[5] = f[5] := h 5 (by decide)
  have h6 : f'[6] = f[6] := h 6 (by decide)
  simp only [Machine.menuId, h3, h4, h5, h6]

theorem bodyLocal_setDuration (n : Word) : BodyLocal [10, 11, 12, 13] [8, 9] (bodySetDuration n) := by
  have hsplit (f f' : Frame) (h : AgreeAt [10, 11, 12, 13] f f') :
      split60 (clamp n.toNat (minTime f') (maxTime f')) = split60 (clamp n.toNat (minTime f) (maxTime f)) := by
    rw [h.canSetDuration.2.1, h.canSetDuration.2.2]
  refine BodyLocal.gated (BodyLocal.guarded (PackLocal.body ?_) .errRange fun f f' h => ?_)
    fun f f' h => h.canSetDuration.1
  · exact packLocal_set_set 8 9 (by decide) (fun f f' h => by rw [hsplit f f' h]) fun f f' h => by rw [hsplit f f' h]
  · rw [hsplit f f' h]

theorem bodyLocal_setSchedule (n : Word) : BodyLocal [7, 15] [14, 15] (bodySetSchedule n) := by
  refine BodyLocal.gated (BodyLocal.guarded (PackLocal.body ?_) .errRange fun _ _ _ => Iff.rfl) fun f f' h => ?_
  · refine packLocal_set_set 14 15 (by decide) (fun _ _ _ => rfl) fun f f' h => ?_
    have h15 : f'[15] = f[15] := h 15 (by decide)
    rw [h15]
  · have h7 : f'[7] = f[7] := h 7 (by decide)
    rw [canSchedule, canSchedule, flagByte, flagByte, h7]

theorem bodyLocal_setSchedEn (v : Bool) : BodyLocal [14] [14] (bodySetSchedEn v) := by
  refine PackLocal.body (packLocal_set 14 fun f f' h => ?_)
  have h14 : f'[14] = f[14] := h 14 (by decide)
  rw [h14]

theorem bodyLocal_setAkw (v : Bool) : BodyLocal [7, 15] [15] (bodySetAkw v) := by
  refine BodyLocal.gated (PackLocal.body (packLocal_set 15 fun f f' h => ?_)) fun f f' h => ?_
  · have h15 : f'[15] = f[15] := h 15 (by decide)
    rw [h15]
  · have h7 : f'[7] = f[7] := h 7 (by decide)
    rw [canAkw, canAkw, flagByte, flagByte, h7]

theorem bodyLocal_setRiceId (n : Word) : BodyLocal [3, 4, 5, 6] [17, 18] (bodySetRiceId n) :=
  BodyLocal.gated (PackLocal.body (packLocal_set_set 17 18 (by decide) (fun _ _ _ => rfl) fun _ _ _ => rfl))
    fun f f' h => by rw [canChooseRice, canChooseRice, h.menuId]

theorem bodyLocal_setTaste (n : Word) : BodyLocal [3, 4, 5, 6] [19] (bodySetTaste n) :=
  BodyLocal.guarded (BodyLocal.gated (PackLocal.body (packLocal_set 19 fun _ _ _ => rfl))
    fun f f' h => by rw [canTaste, canTaste, h.menuId]) .errValidation fun _ _ _ => Iff.rfl

/-- The payload is the bytes at the offsets below 20. -/
theorem AgreeAt.payload {f f' : Frame} (h : AgreeAt ((List.finRange 22).take 20) f f') : payload f' = payload f := by
  refine List.ext_getElem (by simp [Machine.payload]) fun k hk hk' => ?_
  have hk20 : k < 20 := by simpa [Machine.payload] using hk
  have hk22 : k < 22 := Nat.lt_trans hk20 (by decide)
  have hmem : (⟨k, hk22⟩ : Fin 22) ∈ (List.finRange 22).take 20 :=
    List.mem_take_iff_getElem.mpr ⟨k, by simpa using hk20, by simp⟩
  simpa [Machine.payload] using h ⟨k, hk22⟩ hmem

theorem packLocal_serialize :
    PackLocal ((List.finRange 22).take 20) [20, 21] fun f => packTrailer (crc16 (payload f)) f :=
  packLocal_set_set 20 21 (by decide) (fun f f' h => by rw [h.payload]) fun f f' h => by rw [h.payload]

/-! What an update of the state writes. -/

/-- From `s` to `u` no register but those of `W` has changed, and neither have `ERRLOG` and the host's list. -/
structure Writes (W : List Reg) (s u : State) : Prop where
  errlog : u.errlog = s.errlog
  pending : u.pending = s.pending
  outside : ∀ r ∉ W, r.value u = r.value s

theorem writes_refl (W : List Reg) (s : State) : Writes W s s := ⟨rfl, rfl, fun _ _ => rfl⟩

theorem Writes.trans {W : List Reg} {s u v : State} (h : Writes W s u) (h' : Writes W u v) : Writes W s v :=
  ⟨h'.errlog.trans h.errlog, h'.pending.trans h.pending, fun r hr => (h'.outside r hr).trans (h.outside r hr)⟩

theorem Writes.mono {W W' : List Reg} {s u : State} (h : Writes W s u) (hW : W ⊆ W') : Writes W' s u :=
  ⟨h.errlog, h.pending, fun r hr => h.outside r fun hmem => hr (hW hmem)⟩

theorem writes_crc (c : Half) (s : State) : Writes [.crc] s { s with crc := c } :=
  ⟨rfl, rfl, fun r hr => by cases r <;> simp_all [Reg.value]⟩

theorem writes_clearStaging (s : State) : Writes [.ilen, .icrc] s (clearStaging s) :=
  ⟨rfl, rfl, fun r hr => by cases r <;> simp_all [Reg.value]⟩

theorem writes_clearOptions (s : State) : Writes allOpt s (clearOptions s) :=
  ⟨rfl, rfl, fun r hr => by rw [Reg.value_clearOptions, if_neg hr]⟩

theorem mem_allF (k : Fin 22) : Reg.f k ∈ allF := List.mem_map_of_mem (List.mem_finRange k)

theorem mem_allIbuf (k : Fin 22) : Reg.ibuf k ∈ allIbuf := List.mem_map_of_mem (List.mem_finRange k)

theorem writes_pushByte (b : Byte) (s : State) : Writes ([.ilen, .icrc] ++ allIbuf) s (pushByte b s) :=
  ⟨rfl, rfl, fun r hr => by cases r <;> simp_all [Reg.value, mem_allIbuf]⟩

theorem writes_commitFrame (g : Frame) (s : State) : Writes (.valid :: allF) s (commitFrame g s) :=
  ⟨rfl, rfl, fun r hr => by cases r <;> simp_all [Reg.value, mem_allF]⟩

theorem writes_optDur (n : Word) (p : BitVec 4) (s : State) :
    Writes [.optPresent, .optDur] s { s with optDur := n, optPresent := p } :=
  ⟨rfl, rfl, fun r hr => by cases r <;> simp_all [Reg.value]⟩

theorem writes_optSched (n : Word) (p : BitVec 4) (s : State) :
    Writes [.optPresent, .optSched] s { s with optSched := n, optPresent := p } :=
  ⟨rfl, rfl, fun r hr => by cases r <;> simp_all [Reg.value]⟩

theorem writes_optAkw (v : Bool) (p : BitVec 4) (s : State) :
    Writes [.optPresent, .optAkw] s { s with optAkw := v, optPresent := p } :=
  ⟨rfl, rfl, fun r hr => by cases r <;> simp_all [Reg.value]⟩

theorem writes_optTaste (n : Word) (p : BitVec 4) (s : State) :
    Writes [.optPresent, .optTaste] s { s with optTaste := n, optPresent := p } :=
  ⟨rfl, rfl, fun r hr => by cases r <;> simp_all [Reg.value]⟩

/-- A frame written at the offsets `writes`. -/
theorem writes_frame {writes : List (Fin 22)} {g : Frame} {s : State} (hkept : ∀ k ∉ writes, g[k] = s.f[k]) :
    Writes (writes.map .f) s { s with f := g } := by
  refine ⟨rfl, rfl, fun r hr => ?_⟩
  cases r with
  | f k => exact congrArg BitVec.toNat (hkept k fun hk => hr (List.mem_map_of_mem hk))
  | _ => rfl

/-! Two answers with the same status, result and writes. -/

/-- Answers from `s` and from `s'` with one response, each over a state written at most at `W`, where a register of `W` has
one value in both or is kept in both. -/
def SameWrites (W : List Reg) (s s' : State) (a a' : Answer) : Prop :=
  ∃ (st : Status) (x : Word) (u u' : State), a = .next (respond st x u) ∧ a' = .next (respond st x u') ∧
    Writes W s u ∧ Writes W s' u' ∧ ∀ r ∈ W, r.value u' = r.value u ∨ r.value u = r.value s ∧ r.value u' = r.value s'

/-- A response and no write. -/
theorem sameWrites_keep (W : List Reg) (s s' : State) (st : Status) {x x' : Word} (hx : x' = x) :
    SameWrites W s s' (.next (respond st x s)) (.next (respond st x' s')) :=
  hx ▸ ⟨st, x', s, s', rfl, rfl, writes_refl W s, writes_refl W s', fun _ _ => .inr ⟨rfl, rfl⟩⟩

/-- Writes of the same values. -/
theorem sameWrites_write {W : List Reg} {s s' u u' : State} (st : Status) (x : Word) (hu : Writes W s u)
    (hu' : Writes W s' u') (hval : ∀ r ∈ W, r.value u' = r.value u) :
    SameWrites W s s' (.next (respond st x u)) (.next (respond st x u')) :=
  ⟨st, x, u, u', rfl, rfl, hu, hu', fun r hr => .inl (hval r hr)⟩

theorem bool_eq_of_toNat_eq {a b : Bool} (h : a.toNat = b.toNat) : a = b := by
  cases a <;> cases b <;> simp_all

theorem valid_eq_of_value {s s' : State} (h : Reg.valid.value s' = Reg.valid.value s) : s'.valid = s.valid :=
  bool_eq_of_toNat_eq h

theorem frame_eq_of_value {s s' : State} (h : ∀ r ∈ allF, r.value s' = r.value s) : s'.f = s.f := by
  ext k hk : 1
  exact BitVec.toNat_inj.mp (h _ (mem_allF ⟨k, hk⟩))

theorem ibuf_eq_of_value {s s' : State} (h : ∀ r ∈ allIbuf, r.value s' = r.value s) : s'.ibuf = s.ibuf := by
  ext k hk : 1
  exact BitVec.toNat_inj.mp (h _ (mem_allIbuf ⟨k, hk⟩))

/-- A command that reads the frame. -/
theorem sameWrites_readFrame {i : Instr} {value : Frame → Word} (hread : ∀ u, exec i u = readFrame value u)
    (W : List Reg) {s s' : State} (h : ∀ r ∈ Reg.valid :: allF, r.value s' = r.value s) :
    SameWrites W s s' (exec i s) (exec i s') := by
  obtain ⟨hv, hf⟩ := List.forall_mem_cons.mp h
  have hvalid := valid_eq_of_value hv
  rw [hread, hread]
  cases hs : s.valid with
  | true =>
    rw [readFrame_valid hs, readFrame_valid (hvalid.trans hs), frame_eq_of_value hf]
    exact sameWrites_keep W s s' .ok rfl
  | false =>
    rw [readFrame_invalid hs, readFrame_invalid (hvalid.trans hs)]
    exact sameWrites_keep W s s' .errNoProfile rfl

theorem agreeAt_of_value {reads : List (Fin 22)} {s s' : State} (h : ∀ r ∈ reads.map Reg.f, r.value s' = r.value s) :
    AgreeAt reads s.f s'.f := fun k hk => BitVec.toNat_inj.mp (h (.f k) (List.mem_map_of_mem hk))

theorem sameWrites_mutate {reads writes : List (Fin 22)} {body : Body} (hbody : BodyLocal reads writes body)
    {s s' : State} (h : ∀ r ∈ Reg.valid :: reads.map Reg.f, r.value s' = r.value s) :
    SameWrites (writes.map .f) s s' (mutate body s) (mutate body s') := by
  obtain ⟨hv, hf⟩ := List.forall_mem_cons.mp h
  have hvalid := valid_eq_of_value hv
  have hagree := agreeAt_of_value hf
  cases hs : s.valid with
  | true =>
    rw [mutate_valid hs, mutate_valid (hvalid.trans hs), hbody.status _ _ hagree]
    refine ⟨_, _, _, _, rfl, rfl, writes_frame (hbody.kept s.f), writes_frame (hbody.kept s'.f), fun r hr => ?_⟩
    obtain ⟨k, hk, rfl⟩ := List.mem_map.mp hr
    simp only [Reg.value, BitVec.toNat_inj]
    exact hbody.written _ _ hagree k hk
  | false =>
    rw [mutate_invalid hs, mutate_invalid (hvalid.trans hs)]
    exact sameWrites_keep _ s s' .errNoProfile rfl

theorem sameWrites_serialize {s s' : State} (h : ∀ r ∈ readSet .serialize, r.value s' = r.value s) :
    SameWrites (writeSet .serialize) s s' (exec .serialize s) (exec .serialize s') := by
  obtain ⟨hv, hf⟩ := List.forall_mem_cons.mp h
  have hvalid := valid_eq_of_value hv
  have hagree : AgreeAt ((List.finRange 22).take 20) s.f s'.f :=
    agreeAt_of_value (by rwa [List.map_take])
  have hpack := packLocal_serialize
  cases hs : s.valid with
  | true =>
    rw [exec_serialize_of_valid hs, exec_serialize_of_valid (hvalid.trans hs), hagree.payload]
    have hkept' := hpack.kept s'.f
    rw [hagree.payload] at hkept'
    refine sameWrites_write _ _ (writes_frame (writes := [20, 21]) (hpack.kept s.f))
      (writes_frame (writes := [20, 21]) hkept') fun r hr => ?_
    · obtain ⟨k, hk, rfl⟩ := List.mem_map.mp (show r ∈ [20, 21].map Reg.f from hr)
      have hw := hpack.written _ _ hagree k hk
      rw [hagree.payload] at hw
      exact congrArg BitVec.toNat hw
  | false =>
    rw [exec_serialize_of_noProfile hs, exec_serialize_of_noProfile (hvalid.trans hs)]
    exact sameWrites_keep _ s s' .errNoProfile rfl

theorem sameWrites_inByte (b : Byte) {s s' : State} (h : ∀ r ∈ readSet (.inByte b), r.value s' = r.value s) :
    SameWrites (writeSet (.inByte b)) s s' (exec (.inByte b) s) (exec (.inByte b) s') := by
  have hilen : s'.ilen = s.ilen := BitVec.toNat_inj.mp (h .ilen (by simp [readSet]))
  have hicrc : s'.icrc = s.icrc := BitVec.toNat_inj.mp (h .icrc (by simp [readSet]))
  rw [exec_inByte, exec_inByte]
  refine ⟨_, _, _, _, rfl, rfl, writes_pushByte b s, writes_pushByte b s', fun r hr => ?_⟩
  cases r with
  | ibuf k =>
    simp only [Reg.value, Fin.getElem_fin, getElem_pushByte_ibuf, hilen]
    split
    · exact .inl rfl
    · exact .inr ⟨rfl, rfl⟩
  | ilen => exact .inl (by simp only [Reg.value, pushByte_ilen, hilen])
  | icrc => exact .inl (by simp only [Reg.value, pushByte_icrc, hicrc])
  | _ => simp [writeSet, allIbuf] at hr

/-- The staging registers cleared, and a frame committed over that. -/
theorem writes_load (g : Frame) (s : State) :
    Writes (writeSet .load) s (clearStaging s) ∧ Writes (writeSet .load) s (commitFrame g (clearStaging s)) := by
  have hclear : Writes (writeSet .load) s (clearStaging s) := (writes_clearStaging s).mono (by simp [writeSet])
  exact ⟨hclear, hclear.trans ((writes_commitFrame g _).mono (by simp +contextual [writeSet, List.subset_def]))⟩

theorem sameWrites_load {s s' : State} (h : ∀ r ∈ readSet .load, r.value s' = r.value s) :
    SameWrites (writeSet .load) s s' (exec .load s) (exec .load s') := by
  have hilen : s'.ilen = s.ilen := BitVec.toNat_inj.mp (h .ilen (by simp [readSet]))
  have hicrc : s'.icrc = s.icrc := BitVec.toNat_inj.mp (h .icrc (by simp [readSet]))
  have hibuf : s'.ibuf = s.ibuf := ibuf_eq_of_value fun r hr => h r (by simp [readSet, hr])
  by_cases hverdict : parseVerdict s.ilen s.icrc = .ok
  · rw [exec_load_of_ok hverdict, exec_load_of_ok (by rwa [hilen, hicrc]), hibuf]
    refine sameWrites_write .ok 0 (writes_load _ s).2 (writes_load _ s').2 fun r hr => ?_
    cases r with
    | valid | ilen | icrc | f => rfl
    | _ => simp [writeSet, allF] at hr
  · rw [exec_load_of_ne_ok rfl hverdict, exec_load_of_ne_ok (by rw [hilen, hicrc]) hverdict]
    refine ⟨_, _, _, _, rfl, rfl, (writes_load s.ibuf s).1, (writes_load s.ibuf s').1, fun r hr => ?_⟩
    cases r with
    | ilen | icrc => exact .inl rfl
    | valid | f => exact .inr ⟨rfl, rfl⟩
    | _ => simp [writeSet, allF] at hr

/-- The same for `LOAD_OPT`, which clears the option registers too. -/
theorem writes_loadOpt (g : Frame) (s : State) :
    Writes (writeSet .loadOpt) s (clearInput s) ∧ Writes (writeSet .loadOpt) s (commitFrame g (clearInput s)) := by
  have hclear : Writes (writeSet .loadOpt) s (clearInput s) :=
    ((writes_clearStaging s).mono (by simp [writeSet])).trans
      ((writes_clearOptions _).mono (by simp +contextual [writeSet, List.subset_def]))
  exact ⟨hclear, hclear.trans ((writes_commitFrame g _).mono (by simp +contextual [writeSet, List.subset_def]))⟩

/-- A failed `LOAD_OPT` keeps the frame and `VALID`. -/
theorem sameWrites_loadOpt_error (e : Status) (s s' : State) : SameWrites (writeSet .loadOpt) s s'
    (.next (respond e 0 (clearInput s))) (.next (respond e 0 (clearInput s'))) := by
  refine ⟨_, _, _, _, rfl, rfl, (writes_loadOpt s.ibuf s).1, (writes_loadOpt s.ibuf s').1, fun r hr => ?_⟩
  cases r with
  | ilen | icrc | optPresent | optDur | optSched | optAkw | optTaste => exact .inl rfl
  | valid | f => exact .inr ⟨rfl, rfl⟩
  | _ => simp [writeSet, allF, allOpt] at hr

theorem stagedOptions_eq_of_value {s s' : State} (h : ∀ r ∈ allOpt, r.value s' = r.value s) :
    stagedOptions s' = stagedOptions s := by
  have hpresent : s'.optPresent = s.optPresent := BitVec.toNat_inj.mp (h .optPresent (by decide))
  have hdur : s'.optDur = s.optDur := BitVec.toNat_inj.mp (h .optDur (by decide))
  have hsched : s'.optSched = s.optSched := BitVec.toNat_inj.mp (h .optSched (by decide))
  have hakw : s'.optAkw = s.optAkw := bool_eq_of_toNat_eq (h .optAkw (by decide))
  have htaste : s'.optTaste = s.optTaste := BitVec.toNat_inj.mp (h .optTaste (by decide))
  rw [stagedOptions, hpresent, hdur, hsched, hakw, htaste, stagedOptions]

theorem sameWrites_loadOpt {s s' : State} (h : ∀ r ∈ readSet .loadOpt, r.value s' = r.value s) :
    SameWrites (writeSet .loadOpt) s s' (exec .loadOpt s) (exec .loadOpt s') := by
  have hilen : s'.ilen = s.ilen := BitVec.toNat_inj.mp (h .ilen (by simp [readSet]))
  have hicrc : s'.icrc = s.icrc := BitVec.toNat_inj.mp (h .icrc (by simp [readSet]))
  have hibuf : s'.ibuf = s.ibuf := ibuf_eq_of_value fun r hr => h r (by simp [readSet, hr])
  have hoptions := stagedOptions_eq_of_value fun r hr => h r (by simp [readSet, hr])
  obtain ⟨e, he, hverdict, hexec⟩ | ⟨e, hverdict, hconstruct, hexec⟩ | ⟨b, hverdict, hconstruct, hexec⟩ :=
    exec_loadOpt_cases s <;> rw [hexec] <;> rw [← hilen, ← hicrc] at hverdict
  · rw [exec_loadOpt_of_badParse hverdict he]
    exact sameWrites_loadOpt_error e s s'
  · rw [exec_loadOpt_of_error hverdict (by rwa [hibuf, hoptions])]
    exact sameWrites_loadOpt_error e s s'
  · rw [exec_loadOpt_of_ok hverdict (by rwa [hibuf, hoptions])]
    refine sameWrites_write _ _ (writes_loadOpt _ s).2 (writes_loadOpt _ s').2 fun r hr => ?_
    cases r with
    | valid | ilen | icrc | f | optPresent | optDur | optSched | optAkw | optTaste => rfl
    | _ => simp [writeSet, allF, allOpt] at hr

theorem sameWrites_readByte (k : BitVec 5) {s s' : State} (h : ∀ r ∈ readSet (.readByte k), r.value s' = r.value s) :
    SameWrites [] s s' (exec (.readByte k) s) (exec (.readByte k) s') := by
  by_cases hk : k.toNat < 22
  · exact sameWrites_readFrame (exec_readByte hk) [] h
  · rw [show exec (.readByte k) s = answerIllegal s from dif_neg hk,
      show exec (.readByte k) s' = answerIllegal s' from dif_neg hk]
    exact sameWrites_keep _ s s' .errIllegal rfl

/-- R36 for every command: in two states that agree on its read set it writes the same values, at most at its write set. -/
theorem sameWrites_exec (i : Instr) {s s' : State} (h : ∀ r ∈ readSet i, r.value s' = r.value s) :
    SameWrites (writeSet i) s s' (exec i s) (exec i s') :=
  match i with
  | .nop => sameWrites_keep _ s s' .ok rfl
  | .crcClear => sameWrites_write .ok 0 (writes_crc _ s) (writes_crc _ s') (by simp [writeSet, Reg.value])
  | .crcFeed b => by
    have hcrc : s'.crc = s.crc := BitVec.toNat_inj.mp (h .crc (by simp [readSet]))
    exact sameWrites_write .ok 0 (writes_crc _ s) (writes_crc _ s') (by simp [writeSet, Reg.value, hcrc])
  | .crcRead => by
    have hcrc : s'.crc = s.crc := BitVec.toNat_inj.mp (h .crc (by simp [readSet]))
    exact sameWrites_keep _ s s' .ok (by rw [hcrc])
  | .crcCheck => by
    have hcrc : s'.crc = s.crc := BitVec.toNat_inj.mp (h .crc (by simp [readSet]))
    exact sameWrites_keep _ s s' .ok (by rw [hcrc])
  | .inClear => sameWrites_write .ok 0 (writes_clearStaging s) (writes_clearStaging s') (by simp [writeSet, Reg.value])
  | .inByte b => sameWrites_inByte b h
  | .load => sameWrites_load h
  | .getDevtype => sameWrites_readFrame exec_getDevtype _ h
  | .getSubtype => sameWrites_readFrame exec_getSubtype _ h
  | .getMenuIndex => sameWrites_readFrame exec_getMenuIndex _ h
  | .getMenuId => sameWrites_readFrame exec_getMenuId _ h
  | .getFlags => sameWrites_readFrame exec_getFlags _ h
  | .getDuration => sameWrites_readFrame exec_getDuration _ h
  | .getMaxTime => sameWrites_readFrame exec_getMaxTime _ h
  | .getMinTime => sameWrites_readFrame exec_getMinTime _ h
  | .getSchedule => sameWrites_readFrame exec_getSchedule _ h
  | .getSchedEn => sameWrites_readFrame exec_getSchedEn _ h
  | .getAkw => sameWrites_readFrame exec_getAkw _ h
  | .getRiceId => sameWrites_readFrame exec_getRiceId _ h
  | .getTaste => sameWrites_readFrame exec_getTaste _ h
  | .getCaps => sameWrites_readFrame exec_getCaps _ h
  | .getTrailer => sameWrites_readFrame exec_getTrailer _ h
  | .readByte k => sameWrites_readByte k h
  | .setDuration n => sameWrites_mutate (bodyLocal_setDuration n) h
  | .setSchedule n => sameWrites_mutate (bodyLocal_setSchedule n) h
  | .setSchedEn v => sameWrites_mutate (bodyLocal_setSchedEn v) h
  | .setAkw v => sameWrites_mutate (bodyLocal_setAkw v) h
  | .setRiceId n => sameWrites_mutate (bodyLocal_setRiceId n) h
  | .setTaste n => sameWrites_mutate (bodyLocal_setTaste n) h
  | .optClear => sameWrites_write .ok 0 (writes_clearOptions s) (writes_clearOptions s')
      (by simp +contextual [writeSet])
  | .optDuration n => by
    have hpresent : s'.optPresent = s.optPresent := BitVec.toNat_inj.mp (h .optPresent (by simp [readSet]))
    exact sameWrites_write .ok 0 (writes_optDur n _ s) (writes_optDur n _ s') (by simp [writeSet, Reg.value, hpresent])
  | .optSchedule n => by
    have hpresent : s'.optPresent = s.optPresent := BitVec.toNat_inj.mp (h .optPresent (by simp [readSet]))
    exact sameWrites_write .ok 0 (writes_optSched n _ s) (writes_optSched n _ s') (by simp [writeSet, Reg.value, hpresent])
  | .optAkw v => by
    have hpresent : s'.optPresent = s.optPresent := BitVec.toNat_inj.mp (h .optPresent (by simp [readSet]))
    exact sameWrites_write .ok 0 (writes_optAkw v _ s) (writes_optAkw v _ s') (by simp [writeSet, Reg.value, hpresent])
  | .optTaste n => by
    have hpresent : s'.optPresent = s.optPresent := BitVec.toNat_inj.mp (h .optPresent (by simp [readSet]))
    exact sameWrites_write .ok 0 (writes_optTaste n _ s) (writes_optTaste n _ s') (by simp [writeSet, Reg.value, hpresent])
  | .loadOpt => sameWrites_loadOpt h
  | .serialize => sameWrites_serialize h

/-! Every command answers, and what it leaves alone. -/

/-- Every command answers a response over a state written at most at its write set. -/
theorem exec_respond (i : Instr) (s : State) :
    ∃ st x u, exec i s = .next (respond st x u) ∧ Writes (writeSet i) s u := by
  obtain ⟨st, x, u, -, hexec, -, hu, -, -⟩ := sameWrites_exec i (s := s) (s' := s) fun _ _ => rfl
  exact ⟨st, x, u, hexec, hu⟩

/-- So does every word: a word that is no command writes nothing. -/
theorem answerWord_respond (w : CmdWord) (s : State) :
    ∃ st x u W, answerWord w s = .next (respond st x u) ∧ Writes W s u := by
  cases h : decode w with
  | ok i =>
    obtain ⟨st, x, u, hexec, hu⟩ := exec_respond i s
    exact ⟨st, x, u, _, (answerWord_of_decode h).trans hexec, hu⟩
  | error e => exact ⟨.errIllegal, 0, s, [], answerWord_of_illegal h, writes_refl [] s⟩

/-- And every step. -/
theorem step_answers (s : State) : ∃ t, step s = .next t := by
  match hp : s.pending with
  | [] => exact ⟨_, step_of_waiting hp⟩
  | .reset :: rest => exact ⟨_, step_of_reset hp⟩
  | .command w :: rest =>
    obtain ⟨st, x, u, W, hw, -⟩ := answerWord_respond w { s with pending := rest }
    exact ⟨_, (step_of_command hp).trans hw⟩

/-- The state `t` that a command or a word with write set `W` leaves of `s`: the response (60_exceptions.md R222), and
the registers not written. -/
structure Answered (W : List Reg) (s t : State) : Prop where
  pending : t.pending = s.pending
  rspValid : t.rspValid = true
  errlog : t.errlog = s.errlog ||| errlogBit t.status
  result : t.status.isError = true → t.result = 0
  outside : ∀ r ∉ W, r.value t = r.value s

theorem Writes.answered {W : List Reg} {s u : State} (h : Writes W s u) (st : Status) (x : Word) :
    Answered W s (respond st x u) where
  pending := h.pending
  rspValid := rfl
  errlog := by simp [h.errlog]
  result herr := if_pos herr
  outside r hr := (Reg.value_respond ..).trans (h.outside r hr)

theorem exec_answered {i : Instr} {s t : State} (h : exec i s = .next t) : Answered (writeSet i) s t := by
  obtain ⟨st, x, u, hexec, hu⟩ := exec_respond i s
  obtain rfl := Host.Outcome.next.inj (hexec.symm.trans h)
  exact hu.answered st x

theorem answerWord_answered {w : CmdWord} {s t : State} (h : answerWord w s = .next t) : ∃ W, Answered W s t := by
  obtain ⟨st, x, u, W, hexec, hu⟩ := answerWord_respond w s
  obtain rfl := Host.Outcome.next.inj (hexec.symm.trans h)
  exact ⟨W, hu.answered st x⟩

/-- A register whose value a command changes is in its write set. -/
theorem mem_writeSet_of_value_ne {i : Instr} {s t : State} (h : exec i s = .next t) {r : Reg}
    (hne : r.value t ≠ r.value s) : r ∈ writeSet i := by
  by_contra hr
  exact hne ((exec_answered h).outside r hr)

/-! Which commands have a register in their write set. -/

theorem f_mem_writeSet {i : Instr} {k : Fin 22} (h : Reg.f k ∈ writeSet i) : k.val ∈ writtenOffsets i := by
  have hk := k.isLt
  cases i <;> simp_all [writeSet, writtenOffsets, allF, allIbuf, allOpt, Fin.ext_iff]

theorem valid_mem_writeSet {i : Instr} (h : Reg.valid ∈ writeSet i) : i = .load ∨ i = .loadOpt := by
  cases i <;> simp_all [writeSet, allF, allIbuf, allOpt]

theorem crc_mem_writeSet {i : Instr} (h : Reg.crc ∈ writeSet i) : i = .crcClear ∨ ∃ b, i = .crcFeed b := by
  cases i <;> simp_all [writeSet, allF, allIbuf, allOpt]

theorem ibuf_mem_writeSet {i : Instr} {k : Fin 22} (h : Reg.ibuf k ∈ writeSet i) : ∃ b, i = .inByte b := by
  cases i <;> simp_all [writeSet, allF, allOpt]

theorem staging_mem_writeSet {i : Instr} (h : Reg.ilen ∈ writeSet i ∨ Reg.icrc ∈ writeSet i) :
    i = .inClear ∨ i = .load ∨ i = .loadOpt ∨ ∃ b, i = .inByte b := by
  cases i <;> simp_all [writeSet, allF, allIbuf, allOpt]

theorem optPresent_mem_writeSet {i : Instr} (h : Reg.optPresent ∈ writeSet i) :
    i = .optClear ∨ i = .loadOpt ∨ ∃ n v, i ∈ [.optDuration n, .optSchedule n, .optAkw v, .optTaste n] := by
  cases i <;> simp_all [writeSet, allF, allIbuf, allOpt]

theorem optDur_mem_writeSet {i : Instr} (h : Reg.optDur ∈ writeSet i) :
    i = .optClear ∨ i = .loadOpt ∨ ∃ n, i = .optDuration n := by
  cases i <;> simp_all [writeSet, allF, allIbuf, allOpt]

theorem optSched_mem_writeSet {i : Instr} (h : Reg.optSched ∈ writeSet i) :
    i = .optClear ∨ i = .loadOpt ∨ ∃ n, i = .optSchedule n := by
  cases i <;> simp_all [writeSet, allF, allIbuf, allOpt]

theorem optAkw_mem_writeSet {i : Instr} (h : Reg.optAkw ∈ writeSet i) :
    i = .optClear ∨ i = .loadOpt ∨ ∃ v, i = .optAkw v := by
  cases i <;> simp_all [writeSet, allF, allIbuf, allOpt]

theorem optTaste_mem_writeSet {i : Instr} (h : Reg.optTaste ∈ writeSet i) :
    i = .optClear ∨ i = .loadOpt ∨ ∃ n, i = .optTaste n := by
  cases i <;> simp_all [writeSet, allF, allIbuf, allOpt]

/-! `VALID` (R22). -/

/-- A command leaves `VALID` as it is, or it is a load that ends with `OK` and sets it. -/
theorem exec_valid {i : Instr} {s t : State} (h : exec i s = .next t) :
    t.valid = s.valid ∨ t.valid = true ∧ (i = .load ∨ i = .loadOpt) ∧ t.status = .ok := by
  by_cases hkept : t.valid = s.valid
  · exact .inl hkept
  · have hi := valid_mem_writeSet (mem_writeSet_of_value_ne (r := .valid) h fun hval => hkept (valid_eq_of_value hval))
    refine .inr ?_
    obtain rfl | rfl := hi
    · by_cases hverdict : parseVerdict s.ilen s.icrc = .ok
      · obtain rfl := Host.Outcome.next.inj ((exec_load_of_ok hverdict).symm.trans h)
        exact ⟨rfl, .inl rfl, rfl⟩
      · obtain rfl := Host.Outcome.next.inj ((exec_load_of_ne_ok rfl hverdict).symm.trans h)
        exact absurd rfl hkept
    · obtain ⟨e, -, -, hexec⟩ | ⟨e, -, -, hexec⟩ | ⟨b, -, -, hexec⟩ := exec_loadOpt_cases s <;>
        obtain rfl := Host.Outcome.next.inj (hexec.symm.trans h)
      · exact absurd rfl hkept
      · exact absurd rfl hkept
      · exact ⟨rfl, .inr rfl, rfl⟩

/-- No step but a reset clears `VALID`. -/
theorem step_keeps_valid {s t : State} (h : step s = .next t) (hs : s.valid = true) (ht : t.valid = false) :
    s.pending.head? = some .reset := by
  obtain ⟨-, rfl⟩ | ⟨rest, hp, -⟩ | ⟨w, rest, -, hw⟩ := step_cases h
  · exact absurd (hs.symm.trans ht) (by decide)
  · rw [hp]; rfl
  · refine absurd ht ?_
    cases hdecode : decode w with
    | ok i =>
      rw [answerWord_of_decode hdecode] at hw
      obtain hkept | ⟨htrue, -, -⟩ := exec_valid hw
      · simp [hkept, hs]
      · simp [htrue]
    | error e =>
      rw [answerWord_of_illegal hdecode] at hw
      obtain rfl := Host.Outcome.next.inj hw
      simp [hs]

/-! `ERRLOG` (R32). -/

/-- The bit of a status is never a reserved one. -/
theorem or_errlogBit_reserved (e : Half) (st : Status) : (e ||| errlogBit st) &&& 0xFE03 = e &&& 0xFE03 := by
  have hbit : errlogBit st &&& 0xFE03 = 0 := by cases st <;> decide
  rw [BitVec.and_comm, BitVec.and_or_distrib_left, BitVec.and_comm 0xFE03 e, BitVec.and_comm 0xFE03 (errlogBit st), hbit]
  exact BitVec.or_zero

/-! Two states (R36, R24, R32). -/

/-- R36 on the answered states: the statement of O45 for one command. -/
theorem exec_reads_only_readSet {i : Instr} {s s' t : State} (h : exec i s = .next t)
    (hagree : ∀ r ∈ readSet i, r.value s' = r.value s) :
    ∃ t', exec i s' = .next t' ∧ t'.status = t.status ∧ t'.result = t.result ∧
      t'.errlog = s'.errlog ||| errlogBit t.status ∧ t'.rspValid = true ∧ t'.pending = s'.pending ∧
      ∀ r : Reg, (r ∉ writeSet i → r.value t = r.value s ∧ r.value t' = r.value s') ∧
        (r.value t' = r.value t ∨ (r.value t = r.value s ∧ r.value t' = r.value s')) := by
  obtain ⟨st, x, u, u', hexec, hexec', hu, hu', hin⟩ := sameWrites_exec i hagree
  obtain rfl := Host.Outcome.next.inj (hexec.symm.trans h)
  refine ⟨_, hexec', rfl, rfl, by simp [hu'.errlog], rfl, hu'.pending, fun r => ?_⟩
  simp only [Reg.value_respond]
  refine ⟨fun hr => ⟨hu.outside r hr, hu'.outside r hr⟩, ?_⟩
  by_cases hr : r ∈ writeSet i
  · exact hin r hr
  · exact .inr ⟨hu.outside r hr, hu'.outside r hr⟩

/-- A register equal in two states that a command cannot tell apart ends equal. -/
theorem value_eq_of_written {r : Reg} {s s' t t' : State} (heq : r.value s' = r.value s)
    (h : r.value t' = r.value t ∨ (r.value t = r.value s ∧ r.value t' = r.value s')) : r.value t' = r.value t := by
  obtain h | ⟨ht, ht'⟩ := h
  · exact h
  · rw [ht, ht', heq]

/-- From a state with the same registers, whatever its response and its host's list, a command ends the same but for
`ERRLOG`, in which it sets its own bit, and the list. -/
theorem exec_of_same_registers {i : Instr} {s s' t : State} (h : exec i s = .next t)
    (hsame : ∀ r : Reg, r.value s' = r.value s) :
    exec i s' = .next { t with errlog := s'.errlog ||| errlogBit t.status, pending := s'.pending } := by
  obtain ⟨t', hexec', hst, hresult, herrlog, hrsp, hpending, hregs⟩ := exec_reads_only_readSet h fun r _ => hsame r
  have hvalue : ∀ r : Reg, r.value t' = r.value t := fun r => value_eq_of_written (hsame r) (hregs r).2
  rw [hexec', Reg.eq_of_value_eq hvalue, hst, hresult, herrlog, hrsp, hpending, (exec_answered h).rspValid]

/-- So does a word. -/
theorem answerWord_of_same_registers {w : CmdWord} {s s' t : State} (h : answerWord w s = .next t)
    (hsame : ∀ r : Reg, r.value s' = r.value s) :
    answerWord w s' = .next { t with errlog := s'.errlog ||| errlogBit t.status, pending := s'.pending } := by
  cases hdecode : decode w with
  | ok i =>
    rw [answerWord_of_decode hdecode] at h ⊢
    exact exec_of_same_registers h hsame
  | error e =>
    rw [answerWord_of_illegal hdecode] at h ⊢
    obtain rfl := Host.Outcome.next.inj h
    rw [Reg.eq_of_value_eq hsame]
    rfl

/-! Stale bytes (R24). -/

/-- A command that is no load reads no byte of `IBUF`. -/
theorem ibuf_not_mem_readSet {i : Instr} (hload : i ≠ .load) (hloadOpt : i ≠ .loadOpt) (k : Fin 22) :
    Reg.ibuf k ∉ readSet i := by
  cases i <;> simp_all [readSet, allF, ← List.map_take]

/-- In a state with other bytes in `IBUF`, a command that is no load ends the same but for `IBUF`. -/
theorem exec_with_ibuf {i : Instr} {s t u : State} {g : Frame} (hload : i ≠ .load) (hloadOpt : i ≠ .loadOpt)
    (h : exec i s = .next t) (h' : exec i { s with ibuf := g } = .next u) : u = { t with ibuf := u.ibuf } := by
  have hother (r : Reg) (hr : ∀ k, r ≠ .ibuf k) : r.value { s with ibuf := g } = r.value s := by
    cases r <;> simp_all [Reg.value]
  obtain ⟨u', hexec', hst, hresult, herrlog, hrsp, hpending, hregs⟩ :=
    exec_reads_only_readSet (s' := { s with ibuf := g }) h fun r hr =>
      hother r fun k hk => ibuf_not_mem_readSet hload hloadOpt k (hk ▸ hr)
  obtain rfl := Host.Outcome.next.inj (hexec'.symm.trans h')
  have hvalue : ∀ r : Reg, r.value u' = r.value { t with ibuf := u'.ibuf } := by
    intro r
    cases r with
    | ibuf k => rfl
    | _ => exact value_eq_of_written (hother _ (by simp)) (hregs _).2
  rw [Reg.eq_of_value_eq hvalue, hst, hresult, herrlog, hrsp, hpending, ← (exec_answered h).rspValid,
    ← (exec_answered h).errlog, ← (exec_answered h).pending]

/-- A good parse finds every byte staged, so other stale bytes are no other state. -/
theorem with_ibuf_eq_self {s : State} {g : Frame} (hverdict : parseVerdict s.ilen s.icrc = .ok)
    (hfresh : ∀ (k : Nat) (h : k < 22), k < s.ilen.toNat → g[k] = s.ibuf[k]) : { s with ibuf := g } = s := by
  have hfull : s.ilen.toNat = 22 := by
    obtain ⟨-, h⟩ | ⟨-, -, h⟩ | ⟨-, -, -, h⟩ | ⟨h22, -, -⟩ := parseVerdict_cases s.ilen s.icrc
    · exact absurd (h.symm.trans hverdict) (by decide)
    · exact absurd (h.symm.trans hverdict) (by decide)
    · exact absurd (h.symm.trans hverdict) (by decide)
    · exact h22
  have hg : g = s.ibuf := Vector.ext fun k hk => hfresh k hk (by rwa [hfull])
  rw [hg]

/-- A command that stores no byte leaves the staged bytes as they were, or none. -/
theorem exec_staged_cases {i : Instr} {s t : State} (hin : ¬ ∃ b, i = .inByte b) (h : exec i s = .next t) :
    t.ilen = 0 ∧ t.icrc = 0 ∨ t.ilen = s.ilen ∧ t.icrc = s.icrc ∧ t.ibuf = s.ibuf := by
  have houtside := (exec_answered h).outside
  by_cases hwrites : Reg.ilen ∈ writeSet i ∨ Reg.icrc ∈ writeSet i
  · refine .inl ?_
    obtain rfl | rfl | rfl | hb := staging_mem_writeSet hwrites
    · obtain rfl := Host.Outcome.next.inj ((exec_inClear s).symm.trans h)
      exact ⟨rfl, rfl⟩
    · by_cases hverdict : parseVerdict s.ilen s.icrc = .ok
      · obtain rfl := Host.Outcome.next.inj ((exec_load_of_ok hverdict).symm.trans h)
        exact ⟨rfl, rfl⟩
      · obtain rfl := Host.Outcome.next.inj ((exec_load_of_ne_ok rfl hverdict).symm.trans h)
        exact ⟨rfl, rfl⟩
    · obtain ⟨e, -, -, hexec⟩ | ⟨e, -, -, hexec⟩ | ⟨b, -, -, hexec⟩ := exec_loadOpt_cases s <;>
        obtain rfl := Host.Outcome.next.inj (hexec.symm.trans h) <;> exact ⟨rfl, rfl⟩
    · exact absurd hb hin
  · rw [not_or] at hwrites
    refine .inr ⟨BitVec.toNat_inj.mp (houtside .ilen hwrites.1), BitVec.toNat_inj.mp (houtside .icrc hwrites.2),
      ibuf_eq_of_value fun r hr => ?_⟩
    obtain ⟨k, -, rfl⟩ := List.mem_map.mp hr
    exact houtside _ fun hk => hin (ibuf_mem_writeSet hk)

/-- The staged bytes of two states that differ in stale bytes only are the same after any command: a byte just stored is
the same in both, and the others were. -/
theorem exec_staged_eq {i : Instr} {s t u : State} {g : Frame}
    (hfresh : ∀ (k : Nat) (h : k < 22), k < s.ilen.toNat → g[k] = s.ibuf[k]) (h : exec i s = .next t)
    (h' : exec i { s with ibuf := g } = .next u) (hilen : u.ilen = t.ilen) (k : Nat) (hk : k < 22)
    (hlt : k < t.ilen.toNat) : u.ibuf[k] = t.ibuf[k] := by
  by_cases hin : ∃ b, i = .inByte b
  · obtain ⟨b, rfl⟩ := hin
    obtain rfl := Host.Outcome.next.inj ((exec_inByte b s).symm.trans h)
    obtain rfl := Host.Outcome.next.inj ((exec_inByte b _).symm.trans h')
    simp only [respond_ibuf, respond_ilen, toNat_pushByte_ilen] at hlt ⊢
    rw [getElem_pushByte_ibuf b _ hk, getElem_pushByte_ibuf b _ hk]
    show (if k = s.ilen.toNat then b else g[k]) = if k = s.ilen.toNat then b else s.ibuf[k]
    split
    · rfl
    · exact hfresh k hk (by omega)
  · obtain ⟨hzero, -⟩ | ⟨hsame, -, hibuf⟩ := exec_staged_cases hin h
    · simp [hzero] at hlt
    · obtain ⟨hzero, -⟩ | ⟨-, -, hibuf'⟩ := exec_staged_cases hin h'
      · simp [← hilen, hzero] at hlt
      · simp only [hibuf, hibuf']
        exact hfresh k hk (by rwa [← hsame])

/-- Stale bytes are never read, by a load either: a good parse finds none, and a failed one commits none. -/
theorem exec_with_stale_ibuf {i : Instr} {s t u : State} {g : Frame}
    (hfresh : ∀ (k : Nat) (h : k < 22), k < s.ilen.toNat → g[k] = s.ibuf[k]) (h : exec i s = .next t)
    (h' : exec i { s with ibuf := g } = .next u) : u = { t with ibuf := u.ibuf } := by
  by_cases hload : i = .load ∨ i = .loadOpt
  · by_cases hverdict : parseVerdict s.ilen s.icrc = .ok
    · rw [with_ibuf_eq_self hverdict hfresh] at h'
      obtain rfl := Host.Outcome.next.inj (h.symm.trans h')
      rfl
    · obtain rfl | rfl := hload
      · obtain rfl := Host.Outcome.next.inj ((exec_load_of_ne_ok rfl hverdict).symm.trans h)
        obtain rfl := Host.Outcome.next.inj ((exec_load_of_ne_ok rfl (by exact hverdict)).symm.trans h')
        rfl
      · obtain rfl := Host.Outcome.next.inj ((exec_loadOpt_of_badParse rfl hverdict).symm.trans h)
        obtain rfl := Host.Outcome.next.inj ((exec_loadOpt_of_badParse rfl (by exact hverdict)).symm.trans h')
        rfl
  · exact exec_with_ibuf (fun hi => hload (.inl hi)) (fun hi => hload (.inr hi)) h h'

/-! The trailer under construction (R23, 44_construct.md R185). -/

/-- A step of construction writes at most where its body does. -/
theorem optionStep_kept {reads writes : List (Fin 22)} {body : Body} (hbody : BodyLocal reads writes body)
    {wanted : Bool} {bit : BitVec 4} {b b' : Built} (h : optionStep wanted bit body b = .ok b') {k : Fin 22}
    (hk : k ∉ writes) : b'.1[k] = b.1[k] := by
  obtain ⟨-, hok⟩ | ⟨-, -, hfail⟩ | ⟨-, -, hok⟩ | ⟨-, -, hok⟩ := optionStep_cases wanted bit body b
  · obtain rfl := Except.ok.inj (hok.symm.trans h)
    rfl
  · exact nomatch hfail.symm.trans h
  · obtain rfl := Except.ok.inj (hok.symm.trans h)
    exact hbody.kept b.1 k hk
  · obtain rfl := Except.ok.inj (hok.symm.trans h)
    exact hbody.kept b.1 k hk

/-- Construction keeps every byte that none of its four bodies writes. -/
theorem construct_kept {g : Frame} {o : Options} {b : Built} (h : construct g o = .ok b) {k : Fin 22}
    (hk : k ∉ [8, 9, 14, 15, 19]) : b.1[k] = g[k] := by
  obtain ⟨b1, hdur, h⟩ := ok_and_ok_of_bind_ok h
  obtain ⟨b2, hsched, h⟩ := ok_and_ok_of_bind_ok h
  obtain ⟨b3, hakw, htaste⟩ := ok_and_ok_of_bind_ok h
  simp only [List.mem_cons, List.not_mem_nil, or_false, not_or] at hk
  obtain ⟨h8, h9, h14, h15, h19⟩ := hk
  calc b.1[k] = b3.1[k] := optionStep_kept (bodyLocal_setTaste _) htaste (by simp [h19])
    _ = b2.1[k] := optionStep_kept (bodyLocal_setAkw _) hakw (by simp [h15])
    _ = b1.1[k] := optionStep_kept (bodyLocal_setSchedule _) hsched (by simp [h14, h15])
    _ = g[k] := optionStep_kept (bodyLocal_setDuration _) hdur (by simp [h8, h9])

end Sys2Proof.Machine

open Sys2Proof Sys2Proof.Machine

/-- Settles O4: every command ends in a response, and so does a word that is no command. -/
theorem nothingStopsTheBlock : Obligations.NothingStopsTheBlock := by
  refine ⟨step_answers, fun i s => ?_, fun w s => ?_⟩
  · obtain ⟨st, x, u, hexec, -⟩ := exec_respond i s
    exact ⟨_, hexec⟩
  · obtain ⟨st, x, u, W, hexec, -⟩ := answerWord_respond w s
    exact ⟨_, hexec⟩

/-- Settles O20: `ERRLOG` is no register of a read set, and the bit of a status is never a reserved one. -/
theorem errlogIsStickyAndUnread : Obligations.ErrlogIsStickyAndUnread := by
  refine ⟨fun i s t e h => ?_, fun w s t h => ?_⟩
  · rw [exec_of_same_registers h fun r => by cases r <;> rfl, ← (exec_answered h).pending]
  · obtain ⟨W, hanswered⟩ := answerWord_answered h
    refine ⟨fun k hk => ?_, fun hreserved => ?_⟩
    · rw [hanswered.errlog, BitVec.getLsbD_or, hk, Bool.true_or]
    · rw [hanswered.errlog, or_errlogBit_reserved, hreserved]

/-- Settles O43: a register that changes is in the write set, and the table names the commands whose set has it. -/
theorem commandsWriteOnlyTheirWriteSet : Obligations.CommandsWriteOnlyTheirWriteSet := by
  intro i s t h
  have hanswered := exec_answered h
  have hwrites (r : Reg) (hne : r.value t ≠ r.value s) : r ∈ writeSet i := mem_writeSet_of_value_ne h hne
  have bits {w : Nat} {x y : BitVec w} (hne : x ≠ y) : x.toNat ≠ y.toNat := fun heq => hne (BitVec.toNat_inj.mp heq)
  have flags {x y : Bool} (hne : x ≠ y) : x.toNat ≠ y.toNat := fun heq => hne (bool_eq_of_toNat_eq heq)
  refine ⟨fun k hk hnot => ?_, fun hne => valid_mem_writeSet (hwrites .valid (flags hne)),
    fun hne => crc_mem_writeSet (hwrites .crc (bits hne)), fun hne => ?_,
    fun hne => staging_mem_writeSet (hne.imp (fun hne => hwrites .ilen (bits hne)) fun hne => hwrites .icrc (bits hne)),
    fun hne => optPresent_mem_writeSet (hwrites .optPresent (bits hne)),
    fun hne => optDur_mem_writeSet (hwrites .optDur (bits hne)),
    fun hne => optSched_mem_writeSet (hwrites .optSched (bits hne)),
    fun hne => optAkw_mem_writeSet (hwrites .optAkw (flags hne)),
    fun hne => optTaste_mem_writeSet (hwrites .optTaste (bits hne)), hanswered.pending, hanswered.rspValid⟩
  · exact BitVec.toNat_inj.mp (hanswered.outside (.f ⟨k, hk⟩) fun hmem => hnot (f_mem_writeSet hmem))
  · by_contra hin
    refine hne (ibuf_eq_of_value fun r hr => ?_)
    obtain ⟨k, -, rfl⟩ := List.mem_map.mp hr
    exact hanswered.outside _ fun hmem => hin (ibuf_mem_writeSet hmem)

/-- Settles O44: only the loads have `VALID` in their write set, and they only set it. -/
theorem onlyLoadsSetValidAndOnlyResetClearsIt : Obligations.OnlyLoadsSetValidAndOnlyResetClearsIt := by
  refine ⟨fun i s t h => ?_, fun s t => step_keeps_valid⟩
  obtain hkept | ⟨htrue, hload⟩ := exec_valid h
  · rw [hkept]
    exact ⟨id, fun hfalse htrue => absurd (hfalse.symm.trans htrue) (by decide)⟩
  · exact ⟨fun _ => htrue, fun _ _ => hload⟩

/-- Settles O45: `sameWrites_exec`, read on the answered states. -/
theorem commandsReadOnlyTheirReadSet : Obligations.CommandsReadOnlyTheirReadSet :=
  fun _ _ _ _ => exec_reads_only_readSet

/-- Settles O46: only the loads read `IBUF`, and they commit it only where no byte is stale. -/
theorem staleStagedBytesAreNeverRead : Obligations.StaleStagedBytesAreNeverRead := by
  intro i s t u g hfresh h h'
  have hsame := exec_with_stale_ibuf hfresh h h'
  exact ⟨hsame, exec_staged_eq hfresh h h' (by rw [hsame])⟩

/-- Settles O50: the errors are those of the bodies; the schedule and the auto-keep-warm step cannot fail; and no body
writes the trailer. -/
theorem constructFailsOnlyWithRangeOrValidation : Obligations.ConstructFailsOnlyWithRangeOrValidation :=
  fun _ _ => ⟨fun _ => isBodyError_of_construct, exists_construct_ok,
    fun _ h => ⟨construct_kept h (k := 20) (by decide), construct_kept h (k := 21) (by decide)⟩⟩
end

section
/-! PROOF. The laws of the CRC (40_crc.md R80, R86 to R89): linearity, injectivity, the two rounds of eight that a trailer
goes through, and division by the generator polynomial. -/

namespace Sys2Proof.Machine

/-! Rounds and bytes lose nothing (R88, R89). -/

theorem xor_eq_zero_iff {w : Nat} (a b : BitVec w) : a ^^^ b = 0 ↔ a = b := by
  constructor
  · intro h
    rw [← BitVec.xor_zero (x := a), ← BitVec.xor_self (x := b), ← BitVec.xor_assoc, show a ^^^ b = 0 from h]
    exact BitVec.zero_xor
  · rintro rfl
    exact BitVec.xor_self

theorem crcRounds_injective {n : Nat} {a b : Half} (h : crcRounds n a = crcRounds n b) : a = b := by
  rw [← xor_eq_zero_iff, ← crcRounds_xor] at h
  exact (xor_eq_zero_iff a b).mp (eq_zero_of_crcRounds h)

theorem crcUpdate_injective_state {c d : Half} {b : Byte} (h : crcUpdate c b = crcUpdate d b) : c = d := by
  have hxor := crcRounds_injective h
  rw [← xor_eq_zero_iff] at hxor ⊢
  rw [← hxor, BitVec.xor_assoc, BitVec.xor_comm d, ← BitVec.xor_assoc (b.setWidth 16 <<< 8), BitVec.xor_self]
  simp

theorem crcUpdate_injective_byte {c : Half} {b e : Byte} (h : crcUpdate c b = crcUpdate c e) : b = e := by
  have hxor := crcRounds_injective h
  have htop : b.setWidth 16 <<< 8 = (e.setWidth 16 <<< 8 : Half) := by
    simpa using congrArg (c ^^^ ·) hxor
  have hnat := congrArg BitVec.toNat htop
  rw [toNat_byteAtTop, toNat_byteAtTop] at hnat
  exact BitVec.eq_of_toNat_eq (by omega)

theorem foldl_crcUpdate_injective {bytes : List Byte} {c d : Half}
    (h : bytes.foldl crcUpdate c = bytes.foldl crcUpdate d) : c = d := by
  induction bytes generalizing c d with
  | nil => exact h
  | cons b rest ih => exact crcUpdate_injective_state (ih h)

/-- The fold is linear in the state and the bytes together. -/
theorem foldl_crcUpdate_zipWith {a b : List Byte} (hlen : a.length = b.length) (c d : Half) :
    (List.zipWith (· ^^^ ·) a b).foldl crcUpdate (c ^^^ d) = a.foldl crcUpdate c ^^^ b.foldl crcUpdate d := by
  induction a generalizing b c d with
  | nil => simp [List.eq_nil_of_length_eq_zero hlen.symm]
  | cons x xs ih =>
    cases b with
    | nil => simp at hlen
    | cons y ys =>
      rw [List.zipWith_cons_cons, List.foldl_cons, crcUpdate_xor]
      exact ih (Nat.succ.inj hlen) _ _

theorem crc16_zipWith {a b : List Byte} (hlen : a.length = b.length) :
    crc16 (List.zipWith (· ^^^ ·) a b) = crc16 a ^^^ crc16 b := by
  rw [crc16_eq_foldl, crc16_eq_foldl a, crc16_eq_foldl b, ← foldl_crcUpdate_zipWith hlen]
  rfl

/-- A message with one byte changed has another CRC. -/
theorem crc16_ne_of_byte_ne {a c : List Byte} {b e : Byte} (h : b ≠ e) : crc16 (a ++ b :: c) ≠ crc16 (a ++ e :: c) := by
  rw [crc16_append, crc16_append]
  exact fun heq => h (crcUpdate_injective_byte (foldl_crcUpdate_injective heq))

theorem xor_oneBit_ne (b : Byte) {j : Nat} (hj : j < 8) : b ^^^ (1#8 <<< j) ≠ b := by
  intro h
  have hbit := congrArg (BitVec.getLsbD · j) h
  simp [hj] at hbit

/-- Flipping one bit of a message changes its CRC. -/
theorem crc16_flipBit_ne {m : List Byte} {i j : Nat} (hi : i < m.length) (hj : j < 8) :
    crc16 (flipBit m i j) ≠ crc16 m := by
  have hm : m = m.take i ++ m[i] :: m.drop (i + 1) := by simp
  conv_rhs => rw [hm]
  rw [flipBit, List.modify_eq_take_cons_drop hi]
  exact crc16_ne_of_byte_ne (xor_oneBit_ne m[i] hj)

/-! Leading zeros (R87). -/

theorem crcUpdate_zero : crcUpdate 0 0 = 0 := crcRounds_zero 8

theorem crc16_replicate_zero (n : Nat) : crc16 (List.replicate n 0) = 0 := by
  induction n with
  | zero => rfl
  | succ n ih => rw [List.replicate_succ', crc16_snoc, ih, crcUpdate_zero]

theorem crc16_zero_prefix (n : Nat) (m : List Byte) : crc16 (List.replicate n 0 ++ m) = crc16 m := by
  rw [crc16_append, crc16_replicate_zero, crc16_eq_foldl]

/-! The trailer (R86): its two bytes go through sixteen rounds together. -/

/-- Rounds that no set bit leaves by are a shift. -/
theorem crcRounds_of_small {n : Nat} {a : Half} (h : a.toNat * 2 ^ n < 2 ^ 16) : crcRounds n a = a <<< n := by
  induction n generalizing a with
  | zero => rw [crcRounds, BitVec.shiftLeft_zero]
  | succ n ih =>
    have hpow : a.toNat * 2 ^ (n + 1) = 2 * a.toNat * 2 ^ n := by rw [Nat.pow_succ]; ring
    have hpos : 0 < 2 ^ n := Nat.two_pow_pos n
    have hlow : 2 * a.toNat < 0x10000 := by
      rw [hpow] at h
      exact Nat.lt_of_le_of_lt (Nat.le_mul_of_pos_right _ hpos) h
    have hshift : crcShift a = a <<< 1 := if_neg (mt (getLsbD_15_iff a).mp (by omega))
    have hdouble : (a <<< 1).toNat = 2 * a.toNat := by rw [toNat_shiftLeft_one, Nat.mod_eq_of_lt hlow]
    rw [crcRounds, hshift, ih (by rwa [hdouble, ← hpow]), ← BitVec.shiftLeft_add, Nat.add_comm]

/-- A byte at the top is the byte at the bottom eight rounds later. -/
theorem byteAtTop_eq_crcRounds (b : Byte) : (b.setWidth 16 <<< 8 : Half) = crcRounds 8 (b.setWidth 16) := by
  have hb := b.isLt
  refine (crcRounds_of_small ?_).symm
  rw [BitVec.toNat_setWidth]
  omega

/-- A 16-bit value by its two bytes. -/
theorem half_eq_xor_bytes (t : Half) :
    t = ((t.extractLsb' 8 8).setWidth 16 <<< 8) ^^^ (t.extractLsb' 0 8).setWidth 16 := by
  ext i hi
  by_cases h8 : i < 8
  · simp [h8, hi]
  · have hle : 8 ≤ i := Nat.not_lt.mp h8
    have hsub : i - 8 < 8 := by omega
    simp [h8, hi, hsub, Nat.add_sub_cancel' hle]

/-- The two bytes of a trailer enter as one 16-bit value. -/
theorem foldl_trailerBytes (c t : Half) : (trailerBytes t).foldl crcUpdate c = crcRounds 16 (c ^^^ t) := by
  conv_rhs => rw [half_eq_xor_bytes t, ← BitVec.xor_assoc, crcRounds_add 8 8, crcRounds_xor, ← byteAtTop_eq_crcRounds]
  rfl

theorem crc16_append_trailerBytes (m : List Byte) (t : Half) :
    crc16 (m ++ trailerBytes t) = 0 ↔ t = crc16 m := by
  rw [crc16_append, foldl_trailerBytes]
  constructor
  · exact fun h => ((xor_eq_zero_iff _ _).mp (eq_zero_of_crcRounds h)).symm
  · rintro rfl
    rw [BitVec.xor_self]
    exact crcRounds_zero 16

/-! Division by the generator (R80). -/

/-- Two numbers with no common bit are added by XOR. -/
theorem shiftLeft_add_eq_xor {a b i : Nat} (h : b < 2 ^ i) : (a <<< i) + b = (a <<< i) ^^^ b := by
  rw [Nat.shiftLeft_add_eq_or_of_lt h]
  refine Nat.eq_of_testBit_eq fun j => ?_
  rw [Nat.testBit_or, Nat.testBit_xor, Nat.testBit_shiftLeft]
  by_cases hij : i ≤ j
  · rw [Nat.testBit_lt_two_pow (Nat.lt_of_lt_of_le h (Nat.pow_le_pow_right (by decide) hij)), Bool.or_false,
      Bool.xor_false]
  · simp [hij]

/-- One more bit of the quotient. -/
theorem polyTimes_snoc (q : List Bool) (b : Bool) (g : Nat) :
    polyTimes (q ++ [b]) g = (polyTimes q g <<< 1) ^^^ (if b then g else 0) := by
  rw [polyTimes, List.foldl_append]
  rfl

/-- A round doubles and subtracts the generator, `x^16` and all, when bit 15 was set. -/
theorem toNat_crcShift_eq_xor (c : Half) :
    (crcShift c).toNat = (c.toNat <<< 1) ^^^ (if c.getLsbD 15 then 0x11021 else 0) := by
  have hc := c.isLt
  have hdouble : c.toNat <<< 1 = 2 * c.toNat := by rw [Nat.shiftLeft_eq, Nat.pow_one, Nat.mul_comm]
  rw [toNat_crcShift, crcShiftNat, hdouble]
  by_cases h : c.getLsbD 15 = true
  · have hge := (getLsbD_15_iff c).mp h
    have htop : 2 * c.toNat = 0x10000 ^^^ (2 * c.toNat % 0x10000) := by
      have hsum : 2 * c.toNat = 1 <<< 16 + 2 * c.toNat % 0x10000 := by omega
      exact hsum.trans (shiftLeft_add_eq_xor (Nat.mod_lt _ (by decide)))
    have hmod : ((2 * c.toNat) ^^^ 0x1021) % 0x10000 = (2 * c.toNat % 0x10000) ^^^ 0x1021 :=
      Nat.xor_mod_two_pow (n := 16)
    rw [if_pos hge, if_pos h, hmod]
    conv_rhs => rw [htop, Nat.xor_comm 0x10000, Nat.xor_assoc]
    rfl
  · have hlt : ¬ 0x8000 ≤ c.toNat := mt (getLsbD_15_iff c).mpr h
    rw [if_neg hlt, if_neg h, Nat.xor_zero, Nat.mod_eq_of_lt (by omega)]

/-- What is congruent to `y` modulo the generator before `n` rounds is congruent to `y * x^n` after them. -/
theorem exists_polyTimes_crcRounds {q : List Bool} {c : Half} {y : Nat} (n : Nat)
    (h : polyTimes q 0x11021 ^^^ c.toNat = y) :
    ∃ q', polyTimes q' 0x11021 ^^^ (crcRounds n c).toNat = y <<< n := by
  induction n generalizing q c y with
  | zero => exact ⟨q, h⟩
  | succ n ih =>
    have hround : polyTimes (q ++ [c.getLsbD 15]) 0x11021 ^^^ (crcShift c).toNat = y <<< 1 := by
      rw [polyTimes_snoc, toNat_crcShift_eq_xor, ← h, Nat.shiftLeft_xor_distrib]
      generalize (if c.getLsbD 15 then 0x11021 else 0) = g
      rw [Nat.xor_assoc, Nat.xor_comm g, Nat.xor_assoc, Nat.xor_self, Nat.xor_zero]
    obtain ⟨q', hq'⟩ := ih hround
    exact ⟨q', by rw [crcRounds, hq', ← Nat.shiftLeft_add, Nat.add_comm]⟩

/-- A byte added to a message, as polynomials. -/
theorem messagePoly_snoc (m : List Byte) (b : Byte) :
    messagePoly (m ++ [b]) = (messagePoly m <<< 8) ^^^ b.toNat := by
  rw [← shiftLeft_add_eq_xor b.isLt, messagePoly, List.foldl_append, Nat.shiftLeft_eq]
  rfl

/-- `crc16` differs from `M(x) * x^16` by a multiple of the generator. -/
theorem exists_polyTimes_crc16 (m : List Byte) :
    ∃ q, polyTimes q 0x11021 ^^^ (crc16 m).toNat = messagePoly m <<< 16 := by
  induction m using List.reverseRecOn with
  | nil => exact ⟨[], by simp [polyTimes, messagePoly]⟩
  | append_singleton m b ih =>
    obtain ⟨q, hq⟩ := ih
    have henter : polyTimes q 0x11021 ^^^ (crc16 m ^^^ (b.setWidth 16 <<< 8)).toNat =
        ((messagePoly m <<< 8) ^^^ b.toNat) <<< 8 := by
      rw [BitVec.toNat_xor, ← Nat.xor_assoc, hq, toNat_byteAtTop, Nat.shiftLeft_xor_distrib, ← Nat.shiftLeft_add,
        Nat.shiftLeft_eq b.toNat]
    obtain ⟨q', hq'⟩ := exists_polyTimes_crcRounds 8 henter
    refine ⟨q', ?_⟩
    rw [crc16_snoc, crcUpdate, hq', messagePoly_snoc, ← Nat.shiftLeft_add]

end Sys2Proof.Machine

open Sys2Proof Sys2Proof.Machine

/-- Settles O14: each round doubles the remainder and subtracts the generator where it must; its bits are the quotient. -/
theorem crcIsThePolynomialRemainder : Obligations.CrcIsThePolynomialRemainder :=
  ⟨crc16_nil, crc16_eq_foldl, exists_polyTimes_crc16⟩

/-- Settles O15: the trailer enters as one 16-bit value, and sixteen rounds give 0 only from 0. -/
theorem crcTrailerLaw : Obligations.CrcTrailerLaw := crc16_append_trailerBytes

/-- Settles O18: by induction on the bytes, each of which enters linearly. -/
theorem crcIsLinear : Obligations.CrcIsLinear := fun _ _ => crc16_zipWith

end

section
/-! PROOF. Runs of commands (30_encoding.md R70): `CHECKSUM` and `VERIFY`, the bytes that a run of `IN_BYTE` stages and the
outcome of `PARSE` by their length and CRC, the trailer of a frame, and `EMIT`. -/

namespace Sys2Proof.Machine

theorem execAll_singleton (i : Instr) (s : State) : execAll [i] s = exec i s := by
  rw [execAll]
  cases exec i s <;> rfl

/-! `CHECKSUM` and `VERIFY` (40_crc.md R84 to R86). -/

/-- A run that ends with a command answering over the state before it, after `CRC_CLEAR` and a run of `CRC_FEED`. -/
theorem execAll_crc_then {bytes : List Byte} {i : Instr} {x : Half → Word}
    (hi : ∀ t, exec i t = .next (respond .ok (x t.crc) t)) (s : State) :
    ∃ t, execAll ([.crcClear] ++ bytes.map .crcFeed ++ [i]) s = .next t ∧ t.status = .ok ∧
      t.result = x (crc16 bytes) ∧ sameButResponse { s with crc := crc16 bytes } t := by
  obtain ⟨t, hfed, hframe⟩ := execAll_crcClear_crcFeed bytes s
  have hcrc : t.crc = crc16 bytes := congrArg State.crc hframe
  refine ⟨respond .ok (x t.crc) t, ?_, rfl, by simp [hcrc], ?_⟩
  · rw [execAll_append, hfed, andThen_next, execAll_singleton, hi]
  · rw [hframe]
    rfl

theorem execAll_checksum_frame (bytes : List Byte) (s : State) :
    ∃ t, execAll (Pseudo.checksum bytes).expand s = .next t ∧ t.status = .ok ∧
      t.result = (crc16 bytes).setWidth 32 ∧ sameButResponse { s with crc := crc16 bytes } t :=
  execAll_crc_then (x := BitVec.setWidth 32) exec_crcRead s

theorem execAll_verify (bytes : List Byte) (s : State) :
    ∃ t, execAll (Pseudo.verify bytes).expand s = .next t ∧ t.status = .ok ∧
      t.result = (if crc16 bytes = 0 then 1 else 0) ∧ sameButResponse { s with crc := crc16 bytes } t := by
  have hcheck (t : State) : exec .crcCheck t = .next (respond .ok (if t.crc = 0 then 1 else 0) t) := by
    rw [exec_crcCheck]
    simp only [← BitVec.toNat_inj, BitVec.ofNat_eq_ofNat, BitVec.toNat_ofNat, Nat.zero_mod]
  exact execAll_crc_then (x := fun c => if c = 0 then 1 else 0) hcheck s

/-! The staged bytes (41_load.md R100, R101). -/

/-- The staging registers after the bytes `bytes`: the length up to its saturation, the CRC, and the first 22 bytes. -/
structure Staged (bytes : List Byte) (s : State) : Prop where
  ilen : s.ilen.toNat = min bytes.length 0xFFFF
  icrc : s.icrc = crc16 bytes
  ibuf : ∀ (k : Nat) (_ : k < 22) (h : k < bytes.length), s.ibuf[k] = bytes[k]

theorem staged_clearStaging (s : State) : Staged [] (clearStaging s) := ⟨rfl, rfl, fun _ _ h => nomatch h⟩

/-- The response is no part of the staging registers. -/
theorem Staged.respond {bytes : List Byte} {s : State} (h : Staged bytes s) (st : Status) (x : Word) :
    Staged bytes (respond st x s) := ⟨h.ilen, h.icrc, h.ibuf⟩

/-- One more byte. -/
theorem Staged.pushByte {bytes : List Byte} {s : State} (h : Staged bytes s) (b : Byte) :
    Staged (bytes ++ [b]) (pushByte b s) where
  ilen := by
    rw [toNat_pushByte_ilen, h.ilen, List.length_append, List.length_singleton]
    omega
  icrc := by rw [pushByte_icrc, h.icrc, crc16_snoc]
  ibuf k hk hlen := by
    have hilen := h.ilen
    rw [List.length_append, List.length_singleton] at hlen
    rw [getElem_pushByte_ibuf b s hk]
    by_cases hlast : k = bytes.length
    · rw [if_pos (by omega)]
      simp [hlast]
    · rw [if_neg (by omega), h.ibuf k hk (by omega), List.getElem_append_left (by omega)]

/-- Two states with the same registers but for the staging registers and the response. -/
abbrev sameButStaging (s t : State) : Prop :=
  sameButResponse { s with ibuf := t.ibuf, ilen := t.ilen, icrc := t.icrc } t

/-- A run of `IN_BYTE` stages its bytes after those staged before. -/
theorem execAll_inByte (bytes : List Byte) {before : List Byte} {s : State} (h : Staged before s) :
    ∃ t, execAll (bytes.map .inByte) s = .next t ∧ Staged (before ++ bytes) t ∧ sameButStaging s t := by
  induction bytes generalizing before s with
  | nil => exact ⟨s, rfl, by rwa [List.append_nil], rfl⟩
  | cons b rest ih =>
    obtain ⟨t, hrest, hstaged, hframe⟩ := ih ((h.pushByte b).respond .ok 0)
    exact ⟨t, hrest, by rwa [List.append_assoc] at hstaged, hframe⟩

/-- `PARSE` is `LOAD` in a state where its bytes are staged. -/
theorem execAll_parse (bytes : List Byte) (s : State) :
    ∃ u, execAll (Pseudo.parse bytes).expand s = exec .load u ∧ Staged bytes u ∧ sameButStaging s u := by
  obtain ⟨u, hbytes, hstaged, hframe⟩ := execAll_inByte bytes ((staged_clearStaging s).respond .ok 0)
  refine ⟨u, ?_, hstaged, hframe⟩
  rw [Pseudo.expand, List.append_assoc, execAll_append]
  rw [execAll_singleton, exec_inClear, andThen_next, execAll_append, hbytes, andThen_next, execAll_singleton]

/-! The outcome of `PARSE` (R102, R104, R105). -/

/-- The verdict by the length and the CRC of the bytes (R105). -/
def verdictOf (bytes : List Byte) : Status :=
  if bytes.length ≤ 4 then .errFormat else if crc16 bytes ≠ 0 then .errIntegrity
  else if bytes.length ≠ 22 then .errLength else .ok

/-- The saturated length decides as the length does. -/
theorem Staged.parseVerdict {bytes : List Byte} {s : State} (h : Staged bytes s) :
    parseVerdict s.ilen s.icrc = verdictOf bytes := by
  have hilen := h.ilen
  unfold verdictOf
  split
  · exact parseVerdict_of_short (by omega)
  · split
    · next hcrc => exact parseVerdict_of_badCrc (by omega) (by rwa [h.icrc])
    · next hcrc =>
      have hzero : s.icrc = 0 := h.icrc.trans (not_not.mp hcrc)
      split
      · exact parseVerdict_of_badLength (by omega) hzero (by omega)
      · exact parseVerdict_of_good (by omega) hzero

theorem verdictOf_eq_ok_iff (bytes : List Byte) : verdictOf bytes = .ok ↔ crc16 bytes = 0 ∧ bytes.length = 22 := by
  unfold verdictOf
  split
  · simp; omega
  · split
    · simp_all
    · split <;> simp_all

/-- Twenty-two staged bytes are the staging buffer. -/
theorem Staged.toList_ibuf {bytes : List Byte} {s : State} (h : Staged bytes s) (hlen : bytes.length = 22) :
    s.ibuf.toList = bytes := by
  refine List.ext_getElem (by simp [hlen]) fun k hk hk' => ?_
  simpa using h.ibuf k (by simpa using hk) hk'

/-- A good `PARSE` loads its bytes. -/
theorem execAll_parse_of_ok {bytes : List Byte} (s : State) (h : verdictOf bytes = .ok) :
    ∃ u, execAll (Pseudo.parse bytes).expand s = .next (respond .ok 0 (commitFrame u.ibuf (clearStaging u))) ∧
      u.ibuf.toList = bytes ∧ sameButStaging s u := by
  obtain ⟨u, hparse, hstaged, hframe⟩ := execAll_parse bytes s
  refine ⟨u, ?_, hstaged.toList_ibuf ((verdictOf_eq_ok_iff bytes).mp h).2, hframe⟩
  rw [hparse, exec_load_of_ok (hstaged.parseVerdict.trans h)]

/-- A bad one answers its verdict and only leaves the staging registers cleared. -/
theorem execAll_parse_of_ne_ok {bytes : List Byte} (s : State) (h : verdictOf bytes ≠ .ok) :
    ∃ u, execAll (Pseudo.parse bytes).expand s = .next (respond (verdictOf bytes) 0 (clearStaging u)) ∧
      sameButStaging s u := by
  obtain ⟨u, hparse, hstaged, hframe⟩ := execAll_parse bytes s
  refine ⟨u, ?_, hframe⟩
  rw [hparse, exec_load_of_ne_ok hstaged.parseVerdict h]

/-! The trailer of a frame (10_state.md R23). -/

theorem toList_eq_payload_append (f : Frame) : f.toList = payload f ++ trailerBytes (trailer f) := by
  have hhi : (be16 f[20] f[21]).extractLsb' 8 8 = f[20] := by
    rw [extractLsb'_hi_eq_ofNat, toNat_be16]
    have hlo := f[21].isLt
    exact BitVec.eq_of_toNat_eq (by rw [BitVec.toNat_ofNat]; omega)
  have hlo : (be16 f[20] f[21]).extractLsb' 0 8 = f[21] := by
    rw [extractLsb'_lo_eq_ofNat, toNat_be16]
    have hlo := f[21].isLt
    exact BitVec.eq_of_toNat_eq (by rw [BitVec.toNat_ofNat]; omega)
  have hdrop : f.toList.drop 20 = [f[20], f[21]] :=
    List.ext_getElem (by simp) fun k hk hk' => by
      have hk2 : k < 2 := by simpa using hk'
      interval_cases k <;> simp
  rw [trailerBytes, trailer, hhi, hlo, payload, ← hdrop, List.take_append_drop]

/-- The CRC of a frame is 0 exactly when its trailer is the CRC of its payload (40_crc.md R86). -/
theorem crc16_toList_eq_zero_iff (f : Frame) : crc16 f.toList = 0 ↔ trailer f = crc16 (payload f) := by
  rw [toList_eq_payload_append, crc16_append_trailerBytes]

@[simp] theorem trailer_packTrailer (c : Half) (f : Frame) : trailer (packTrailer c f) = c := by
  have hc := c.isLt
  apply BitVec.eq_of_toNat_eq
  rw [packTrailer_eq, trailer, toNat_be16]
  simp
  omega

theorem crc16_packTrailer (f : Frame) : crc16 (packTrailer (crc16 (payload f)) f).toList = 0 := by
  rw [crc16_toList_eq_zero_iff, trailer_packTrailer, payload_packTrailer]

/-- A frame with a CRC of 0 parses into itself. -/
theorem execAll_parse_frame {f : Frame} (h : crc16 f.toList = 0) (s : State) :
    ∃ t, execAll (Pseudo.parse f.toList).expand s = .next t ∧ t.status = .ok ∧ t.valid = true ∧ t.f = f := by
  obtain ⟨u, hparse, hbytes, -⟩ := execAll_parse_of_ok s ((verdictOf_eq_ok_iff _).mpr ⟨h, f.length_toList⟩)
  exact ⟨_, hparse, rfl, rfl, Vector.toList_inj.mp hbytes⟩

/-- The state `SERIALIZE` leaves of a loaded profile (45_serialize.md R200). -/
def serialized (s : State) : State :=
  respond .ok ((crc16 (payload s.f)).setWidth 32) { s with f := packTrailer (crc16 (payload s.f)) s.f }

theorem exec_serialize_eq {s : State} (hvalid : s.valid = true) : exec .serialize s = .next (serialized s) :=
  exec_serialize_of_valid hvalid

/-- It keeps the payload, and its frame's CRC is 0. -/
theorem payload_serialized (s : State) : payload (serialized s).f = payload s.f := payload_packTrailer _ _

theorem crc16_serialized (s : State) : crc16 (serialized s).f.toList = 0 := crc16_packTrailer s.f

/-! Construction with an empty mask (44_construct.md R185). -/

/-- A body that writes the frame only where it ends with `OK`. -/
def WritesOnlyOk (body : Body) : Prop := ∀ f : Frame, (body f).1 = .ok ∨ (body f).2 = f

theorem writesOnlyOk_pack (pack : Frame → Frame) : WritesOnlyOk fun f => (.ok, pack f) := fun _ => .inl rfl

theorem WritesOnlyOk.gated {body : Body} (h : WritesOnlyOk body) (can : Frame → Bool) : WritesOnlyOk (gated can body) := by
  intro f
  cases hcan : can f with
  | true => rw [gated_true hcan]; exact h f
  | false => rw [gated_false hcan]; exact .inr rfl

theorem WritesOnlyOk.guarded {body : Body} (h : WritesOnlyOk body) (e : Status) (bad : Frame → Prop)
    [DecidablePred bad] : WritesOnlyOk fun f => if bad f then (e, f) else body f := by
  intro f
  by_cases hbad : bad f
  · simp [hbad]
  · simpa [hbad] using h f

/-- A step that leaves the mask empty found it empty, and keeps the frame. -/
theorem optionStep_of_empty_mask {body : Body} (hbody : WritesOnlyOk body) {wanted : Bool} {bit : BitVec 4}
    {b b' : Built} (hbit : bit ≠ 0) (h : optionStep wanted bit body b = .ok b') (hmask : b'.2 = 0) : b' = b := by
  obtain ⟨-, hok⟩ | ⟨-, -, hfail⟩ | ⟨-, -, hok⟩ | ⟨-, hignored, hok⟩ := optionStep_cases wanted bit body b
  · exact (Except.ok.inj (hok.symm.trans h)).symm
  · exact nomatch hfail.symm.trans h
  · obtain rfl := Except.ok.inj (hok.symm.trans h)
    exact absurd (BitVec.or_eq_zero_iff.mp hmask).2 hbit
  · obtain rfl := Except.ok.inj (hok.symm.trans h)
    have hkept : (body b.1).2 = b.1 := (hbody b.1).resolve_left (by rw [hignored]; decide)
    rw [hkept]

/-- With no option applied the constructed frame is the staged one. -/
theorem construct_of_empty_mask {g : Frame} {o : Options} {b : Built} (h : construct g o = .ok b) (hmask : b.2 = 0) :
    b.1 = g := by
  obtain ⟨b1, hdur, h⟩ := ok_and_ok_of_bind_ok h
  obtain ⟨b2, hsched, h⟩ := ok_and_ok_of_bind_ok h
  obtain ⟨b3, hakw, htaste⟩ := ok_and_ok_of_bind_ok h
  obtain rfl := optionStep_of_empty_mask (((writesOnlyOk_pack _).gated _).guarded _ _) (by decide) htaste hmask
  obtain rfl := optionStep_of_empty_mask ((writesOnlyOk_pack _).gated _) (by decide) hakw hmask
  obtain rfl := optionStep_of_empty_mask (((writesOnlyOk_pack _).guarded _ _).gated _) (by decide) hsched hmask
  obtain rfl := optionStep_of_empty_mask (((writesOnlyOk_pack _).guarded _ _).gated _) (by decide) hdur hmask
  rfl

/-- A good parse of consistent staging registers stages a frame with a right trailer (R26, 41_load.md R102). -/
theorem trailer_ibuf_of_parse_ok {s : State} (hstaging : s.stagingConsistent)
    (hverdict : parseVerdict s.ilen s.icrc = .ok) : trailer s.ibuf = crc16 (payload s.ibuf) := by
  rw [← crc16_toList_eq_zero_iff]
  obtain ⟨-, h⟩ | ⟨-, -, h⟩ | ⟨-, -, -, h⟩ | ⟨h22, hzero, -⟩ := parseVerdict_cases s.ilen s.icrc
  · exact absurd (h.symm.trans hverdict) (by decide)
  · exact absurd (h.symm.trans hverdict) (by decide)
  · exact absurd (h.symm.trans hverdict) (by decide)
  · have hcrc := hstaging (Nat.le_of_eq h22)
    rw [h22, List.take_of_length_le (by simp)] at hcrc
    rw [← hcrc, hzero]

/-! `EMIT` (R70, 70_reset_and_hazards.md R252). -/

theorem answerWord_encode {i : Instr} (hwf : i.wellFormed = true) (s : State) : answerWord (encode i) s = exec i s :=
  answerWord_of_decode (decode_encode hwf)

/-- Reading bytes of a loaded frame gives the host those bytes, and keeps the profile. -/
theorem observe_readBytes {ks : List (BitVec 5)} (hks : ∀ k ∈ ks, k.toNat < 22) {s : State} (hvalid : s.valid = true) :
    ∃ t, observe ((ks.map Instr.readByte).map encode) s =
        some (t, ks.map fun k => ⟨.ok, (s.f.toList.getD k.toNat 0).setWidth 32⟩) ∧ t.f = s.f := by
  induction ks generalizing s with
  | nil => exact ⟨s, rfl, rfl⟩
  | cons k rest ih =>
    obtain ⟨hk, hrest⟩ := List.forall_mem_cons.mp hks
    have hread : answerWord (encode (.readByte k)) s = .next (respond .ok (s.f[k.toNat].setWidth 32) s) := by
      rw [answerWord_encode (i := .readByte k) (decide_eq_true (Nat.le_of_lt_succ hk)), exec_readByte hk, readFrame_valid hvalid]
    obtain ⟨t, ht, hf⟩ := ih hrest (s := respond .ok (s.f[k.toNat].setWidth 32) s) hvalid
    refine ⟨t, ?_, hf⟩
    simp [observe, hread, ht, responseOf, List.getD, hk, -List.map_map]

/-- The offsets of `EMIT` are those of the frame, in order. -/
theorem allOffsets_map_toNat : allOffsets.map BitVec.toNat = List.range 22 := by decide

theorem lt_of_mem_allOffsets : ∀ k ∈ allOffsets, k.toNat < 22 := by decide

/-- The bytes of a frame at those offsets are the frame. -/
theorem map_getD_allOffsets {α : Type} (f : Frame) (g : Byte → α) :
    allOffsets.map (fun k => g (f.toList.getD k.toNat 0)) = f.toList.map g := by
  have hmap : allOffsets.map (fun k => g (f.toList.getD k.toNat 0)) =
      (List.range 22).map fun k => g (f.toList.getD k 0) := by
    rw [← allOffsets_map_toNat, List.map_map]
    rfl
  rw [hmap]
  refine List.ext_getElem (by simp) fun k hk hk' => ?_
  have hk22 : k < 22 := by simpa using hk
  simp [List.getD, hk22]

end Sys2Proof.Machine

open Sys2Proof Sys2Proof.Machine

/-- Settles O16: zero bytes leave a CRC of 0, so 22 of them are a good frame. -/
theorem crcZeroPrefixLaw : Obligations.CrcZeroPrefixLaw := by
  refine ⟨crcUpdate_zero, crc16_zero_prefix, crc16_replicate_zero, fun s => ?_⟩
  have hok := (verdictOf_eq_ok_iff _).mpr ⟨crc16_replicate_zero 22, List.length_replicate⟩
  obtain ⟨u, hparse, -, -⟩ := execAll_parse_of_ok s hok
  exact ⟨_, hparse, rfl⟩

/-- Settles O17: a changed byte changes the CRC, and a frame with a CRC that is not 0 fails the integrity check. -/
theorem crcSingleBitSensitivity : Obligations.CrcSingleBitSensitivity := by
  refine ⟨fun m i j => crc16_flipBit_ne, fun g i j s hg hi hj => ?_⟩
  have hcrc : crc16 (flipBit g.toList i j) ≠ 0 := hg ▸ crc16_flipBit_ne (by rw [g.length_toList]; omega) hj
  have hlen : (flipBit g.toList i j).length = 22 := by rw [flipBit, List.length_modify, g.length_toList]
  have hbad : verdictOf (flipBit g.toList i j) = .errIntegrity := by
    rw [verdictOf, hlen, if_neg (by decide), if_pos hcrc]
  obtain ⟨u, hparse, -⟩ := execAll_parse_of_ne_ok s (by rw [hbad]; decide)
  exact ⟨_, hparse, hbad⟩

/-- Settles O25: the CRC register holds the bytes' crc16 when it is read or checked; with a trailer it is 0 as the trailer
law says. -/
theorem checksumAndVerifyAreTheSourcesFunctions : Obligations.ChecksumAndVerifyAreTheSourcesFunctions := by
  refine ⟨fun bytes s => ?_, execAll_verify, fun m c s => ?_⟩
  · obtain ⟨t, ht, hst, hresult, hframe⟩ := execAll_checksum_frame bytes s
    refine ⟨t, ht, hst, ?_, hframe⟩
    rw [hresult, BitVec.toNat_setWidth, Nat.mod_eq_of_lt (Nat.lt_trans (BitVec.isLt _) (by decide))]
  · obtain ⟨t, ht, -, hresult, -⟩ := execAll_verify (m ++ trailerBytes c) s
    refine ⟨t, ht, ?_⟩
    rw [hresult, ← crc16_append_trailerBytes]
    by_cases h : crc16 (m ++ trailerBytes c) = 0
    · exact iff_of_true (if_pos h) h
    · rw [if_neg h]
      exact iff_of_false (by decide) h

/-- Settles O28: the staging registers of any input give the verdict of its length and CRC. -/
theorem parseOutcomeByLengthAndCrc : Obligations.ParseOutcomeByLengthAndCrc := by
  intro bytes s
  have kept {u : State} (hframe : sameButStaging s u) :
      u.crc = s.crc ∧ u.optPresent = s.optPresent ∧ u.f = s.f ∧ u.valid = s.valid := by
    rw [hframe]
    exact ⟨rfl, rfl, rfl, rfl⟩
  by_cases hok : verdictOf bytes = .ok
  · obtain ⟨u, hparse, hbytes, hframe⟩ := execAll_parse_of_ok s hok
    obtain ⟨hcrc, hopt, -, -⟩ := kept hframe
    exact ⟨_, hparse, hok.symm, rfl, rfl, hcrc, hopt, fun _ => ⟨hbytes, rfl⟩, fun hne => absurd rfl hne⟩
  · obtain ⟨u, hparse, hframe⟩ := execAll_parse_of_ne_ok s hok
    obtain ⟨hcrc, hopt, hf, hvalid⟩ := kept hframe
    exact ⟨_, hparse, rfl, rfl, rfl, hcrc, hopt, fun h => absurd h hok, fun _ => ⟨hf, hvalid⟩⟩

/-- Settles O29: a good parse has checked the trailer, construction with an empty mask changes nothing, and `SERIALIZE`
writes the trailer. -/
theorem trailerHoldsAfterLoadAndSerialize : Obligations.TrailerHoldsAfterLoadAndSerialize := by
  intro s t hinv hok
  refine ⟨fun h => ?_, fun h hresult => ?_, fun h => ?_⟩
  · by_cases hverdict : parseVerdict s.ilen s.icrc = .ok
    · obtain rfl := Host.Outcome.next.inj ((exec_load_of_ok hverdict).symm.trans h)
      exact trailer_ibuf_of_parse_ok hinv.stagingConsistent hverdict
    · obtain rfl := Host.Outcome.next.inj ((exec_load_of_ne_ok rfl hverdict).symm.trans h)
      exact absurd hok hverdict
  · obtain ⟨e, he, -, hexec⟩ | ⟨e, -, hconstruct, hexec⟩ | ⟨b, hverdict, hconstruct, hexec⟩ := exec_loadOpt_cases s <;>
      obtain rfl := Host.Outcome.next.inj (hexec.symm.trans h)
    · exact absurd hok he
    · obtain rfl | rfl := isBodyError_of_construct hconstruct <;> exact nomatch hok
    · have hmask : b.2 = 0 := by
        have hnat := congrArg BitVec.toNat hresult
        have hlt := b.2.isLt
        simp at hnat
        exact BitVec.eq_of_toNat_eq (by simp; omega)
      show trailer b.1 = crc16 (payload b.1)
      rw [construct_of_empty_mask hconstruct hmask]
      exact trailer_ibuf_of_parse_ok hinv.stagingConsistent hverdict
  · cases hvalid : s.valid with
    | true =>
      obtain rfl := Host.Outcome.next.inj ((exec_serialize_of_valid hvalid).symm.trans h)
      simp
    | false =>
      obtain rfl := Host.Outcome.next.inj ((exec_serialize_of_noProfile hvalid).symm.trans h)
      exact nomatch hok

/-- Settles O53: the serialized frame has a CRC of 0, so it parses, into itself. -/
theorem serializeThenParseIsTheSameFrame : Obligations.SerializeThenParseIsTheSameFrame := by
  intro s hvalid
  obtain ⟨t, hparse, hst, hloaded, hf⟩ := execAll_parse_frame (crc16_serialized s) (serialized s)
  exact ⟨serialized s, t, exec_serialize_eq hvalid, hparse, hst, hloaded, hf, by rw [hf, payload_serialized]⟩

/-- Settles O54: `SERIALIZE` answers the CRC and packs it, and the reads that follow give the frame byte by byte. -/
theorem emitGivesTheHostTheWireFrame : Obligations.EmitGivesTheHostTheWireFrame := by
  intro s hvalid
  obtain ⟨t, ht, hf⟩ := observe_readBytes lt_of_mem_allOffsets (s := serialized s) hvalid
  refine ⟨t, ?_, by rw [hf]; exact crc16_serialized s, by rw [hf, payload_serialized]⟩
  have hserialize := (answerWord_encode (i := .serialize) rfl s).trans (exec_serialize_eq hvalid)
  rw [map_getD_allOffsets _ fun b => (⟨.ok, b.setWidth 32⟩ : Response), ← hf] at ht
  rw [Pseudo.expand, List.singleton_append, List.map_cons, observe, hserialize]
  simp only [ht, Option.map_some]
  rfl
end

section
/-! PROOF. The invariant of the transaction-level state (10_state.md R22 to R32, 60_exceptions.md R222, 30_encoding.md R67):
it holds after a reset, every command keeps it, and so every step does. -/

namespace Sys2Proof.Machine

/-! Reset and waiting (R35). -/

/-- With nothing staged the staging registers are consistent. -/
theorem stagingConsistent_of_empty {s : State} (hilen : s.ilen = 0) (hicrc : s.icrc = 0) : s.stagingConsistent := by
  intro _
  rw [hilen, hicrc]
  exact crc16_nil.symm.trans (congrArg crc16 (List.take_zero ..).symm)

/-- The reset state meets the invariant, whatever the host has still to do. -/
theorem inv_reset (rest : List HostAction) : ({ State.reset with pending := rest } : State).Inv where
  errlogReserved := BitVec.zero_and
  errorRecorded := fun herr => nomatch herr
  noProfileNoFrame _ := rfl
  stagingConsistent := stagingConsistent_of_empty rfl rfl
  absentOptionsZero := ⟨fun _ => rfl, fun _ => rfl, fun _ => rfl, fun _ => rfl⟩
  unansweredIsReset _ := rfl

/-- The invariant says nothing of the host's list. -/
theorem State.Inv.withPending {s : State} (h : s.Inv) (rest : List HostAction) :
    ({ s with pending := rest } : State).Inv where
  errlogReserved := h.errlogReserved
  errorRecorded := h.errorRecorded
  noProfileNoFrame := h.noProfileNoFrame
  stagingConsistent := h.stagingConsistent
  absentOptionsZero := h.absentOptionsZero
  unansweredIsReset hrsp := by rw [h.unansweredIsReset hrsp]

/-! The clauses about the response, for anything that answers. -/

theorem Answered.errlogReserved {W : List Reg} {s t : State} (h : Answered W s t) (hs : s.errlogReserved) :
    t.errlogReserved := by
  show t.errlog &&& 0xFE03 = 0
  rw [h.errlog, or_errlogBit_reserved]
  exact hs

theorem Answered.errorRecorded {W : List Reg} {s t : State} (h : Answered W s t) : t.errorRecorded := by
  intro herr
  refine ⟨h.result herr, ?_⟩
  rw [h.errlog, BitVec.getLsbD_or, getLsbD_errlogBit]
  simp [(isError_iff_code t.status).mp herr]

theorem Answered.unansweredIsReset {W : List Reg} {s t : State} (h : Answered W s t) : t.unansweredIsReset :=
  fun hrsp => absurd (h.rspValid.symm.trans hrsp) (by decide)

/-! The frame register (R22). -/

/-- A command that writes `F` is a mutator, `SERIALIZE` or a load. -/
theorem frame_writer_cases {i : Instr} {k : Fin 22} (h : Reg.f k ∈ writeSet i) :
    (∃ body, ∀ s, exec i s = mutate body s) ∨ i = .serialize ∨ i = .load ∨ i = .loadOpt := by
  cases i with
  | setDuration n => exact .inl ⟨_, exec_setDuration n⟩
  | setSchedule n => exact .inl ⟨_, exec_setSchedule n⟩
  | setSchedEn v => exact .inl ⟨_, exec_setSchedEn v⟩
  | setAkw v => exact .inl ⟨_, exec_setAkw v⟩
  | setRiceId n => exact .inl ⟨_, exec_setRiceId n⟩
  | setTaste n => exact .inl ⟨_, exec_setTaste n⟩
  | serialize => exact .inr (.inl rfl)
  | load => exact .inr (.inr (.inl rfl))
  | loadOpt => exact .inr (.inr (.inr rfl))
  | _ => simp [writeSet, allOpt, allIbuf] at h

/-- A command that finds no profile and leaves none keeps the frame register. -/
theorem exec_frame_of_noProfile {i : Instr} {s t : State} (h : exec i s = .next t) (hs : s.valid = false)
    (ht : t.valid = false) : t.f = s.f := by
  refine frame_eq_of_value fun r hr => ?_
  obtain ⟨k, -, rfl⟩ := List.mem_map.mp hr
  by_cases hk : Reg.f k ∈ writeSet i
  · obtain ⟨body, hmutate⟩ | rfl | rfl | rfl := frame_writer_cases hk
    · obtain rfl := Host.Outcome.next.inj ((exec_of_mutate_noProfile (hmutate s) hs).symm.trans h)
      rfl
    · obtain rfl := Host.Outcome.next.inj ((exec_serialize_of_noProfile hs).symm.trans h)
      rfl
    · by_cases hverdict : parseVerdict s.ilen s.icrc = .ok
      · obtain rfl := Host.Outcome.next.inj ((exec_load_of_ok hverdict).symm.trans h)
        exact nomatch ht
      · obtain rfl := Host.Outcome.next.inj ((exec_load_of_ne_ok rfl hverdict).symm.trans h)
        rfl
    · obtain ⟨e, -, -, hexec⟩ | ⟨e, -, -, hexec⟩ | ⟨b, -, -, hexec⟩ := exec_loadOpt_cases s <;>
        obtain rfl := Host.Outcome.next.inj (hexec.symm.trans h)
      · rfl
      · rfl
      · exact nomatch ht
  · exact (exec_answered h).outside _ hk

theorem exec_keeps_noProfileNoFrame {i : Instr} {s t : State} (h : exec i s = .next t) (hs : s.noProfileNoFrame) :
    t.noProfileNoFrame := by
  intro ht
  obtain hkept | ⟨htrue, -⟩ := exec_valid h
  · have hinvalid : s.valid = false := hkept.symm.trans ht
    exact (exec_frame_of_noProfile h hinvalid ht).trans (hs hinvalid)
  · exact absurd (htrue.symm.trans ht) (by decide)

/-! The staging registers (R24 to R26). -/

/-- The bytes up to a byte just written. -/
theorem take_succ_set {α : Type} {l : List α} {n : Nat} (hn : n < l.length) (b : α) :
    (l.set n b).take (n + 1) = l.take n ++ [b] := by
  rw [List.take_succ_eq_append_getElem (by simpa), List.take_set_of_le (Nat.le_refl n), List.getElem_set_self]

theorem pushByte_keeps_stagingConsistent {s : State} (b : Byte) (hs : s.stagingConsistent) :
    (pushByte b s).stagingConsistent := by
  intro hle
  rw [toNat_pushByte_ilen] at hle
  have hlt : s.ilen.toNat < 22 := by simp at hle; omega
  have hilen : (pushByte b s).ilen.toNat = s.ilen.toNat + 1 := by rw [toNat_pushByte_ilen]; omega
  have hibuf : (pushByte b s).ibuf.toList = s.ibuf.toList.set s.ilen.toNat b := by
    rw [pushByte_ibuf, dif_pos hlt, Vector.toList_set]
  rw [pushByte_icrc, hs hlt.le, hilen, hibuf, take_succ_set (by simpa using hlt), crc16_snoc]

theorem exec_keeps_stagingConsistent {i : Instr} {s t : State} (h : exec i s = .next t) (hs : s.stagingConsistent) :
    t.stagingConsistent := by
  by_cases hin : ∃ b, i = .inByte b
  · obtain ⟨b, rfl⟩ := hin
    obtain rfl := Host.Outcome.next.inj ((exec_inByte b s).symm.trans h)
    exact pushByte_keeps_stagingConsistent b hs
  · obtain ⟨hilen, hicrc⟩ | ⟨hilen, hicrc, hibuf⟩ := exec_staged_cases hin h
    · exact stagingConsistent_of_empty hilen hicrc
    · show t.ilen.toNat ≤ 22 → t.icrc = crc16 (t.ibuf.toList.take t.ilen.toNat)
      rw [hilen, hicrc, hibuf]
      exact hs

/-! The option registers (R28). -/

/-- The other option registers are written with `OPT_PRESENT` only. -/
theorem optPresent_mem_writeSet_of_opt {i : Instr} {r : Reg} (hr : r ∈ allOpt) (h : r ∈ writeSet i) :
    Reg.optPresent ∈ writeSet i := by
  simp only [allOpt, List.mem_cons, List.not_mem_nil, or_false] at hr
  obtain rfl | rfl | rfl | rfl | rfl := hr
  · exact h
  · obtain rfl | rfl | ⟨n, rfl⟩ := optDur_mem_writeSet h <;> simp [writeSet, allOpt]
  · obtain rfl | rfl | ⟨n, rfl⟩ := optSched_mem_writeSet h <;> simp [writeSet, allOpt]
  · obtain rfl | rfl | ⟨v, rfl⟩ := optAkw_mem_writeSet h <;> simp [writeSet, allOpt]
  · obtain rfl | rfl | ⟨n, rfl⟩ := optTaste_mem_writeSet h <;> simp [writeSet, allOpt]

/-- Cleared option registers hold 0, provided or not. -/
theorem absentOptionsZero_clearOptions (s : State) : (clearOptions s).absentOptionsZero :=
  ⟨fun _ => rfl, fun _ => rfl, fun _ => rfl, fun _ => rfl⟩

theorem exec_keeps_absentOptionsZero {i : Instr} {s t : State} (h : exec i s = .next t) (hs : s.absentOptionsZero) :
    t.absentOptionsZero := by
  obtain ⟨hdur, hsched, hakw, htaste⟩ := hs
  by_cases hp : Reg.optPresent ∈ writeSet i
  · obtain rfl | rfl | ⟨n, v, hi⟩ := optPresent_mem_writeSet hp
    · obtain rfl := Host.Outcome.next.inj ((exec_optClear s).symm.trans h)
      exact absentOptionsZero_clearOptions s
    · obtain ⟨e, -, -, hexec⟩ | ⟨e, -, -, hexec⟩ | ⟨b, -, -, hexec⟩ := exec_loadOpt_cases s <;>
        obtain rfl := Host.Outcome.next.inj (hexec.symm.trans h) <;>
        exact absentOptionsZero_clearOptions (clearStaging s)
    · simp only [List.mem_cons, List.not_mem_nil, or_false] at hi
      obtain rfl | rfl | rfl | rfl := hi
      · obtain rfl := Host.Outcome.next.inj ((exec_optDuration n s).symm.trans h)
        simpa [State.absentOptionsZero] using ⟨hsched, hakw, htaste⟩
      · obtain rfl := Host.Outcome.next.inj ((exec_optSchedule n s).symm.trans h)
        simpa [State.absentOptionsZero] using ⟨hdur, hakw, htaste⟩
      · obtain rfl := Host.Outcome.next.inj ((exec_optAkw v s).symm.trans h)
        simpa [State.absentOptionsZero] using ⟨hdur, hsched, htaste⟩
      · obtain rfl := Host.Outcome.next.inj ((exec_optTaste n s).symm.trans h)
        simpa [State.absentOptionsZero] using ⟨hdur, hsched, hakw⟩
  · have hsame : stagedOptions t = stagedOptions s := stagedOptions_eq_of_value fun r hr =>
      (exec_answered h).outside r fun hmem => hp (optPresent_mem_writeSet_of_opt hr hmem)
    simp only [stagedOptions, Options.mk.injEq] at hsame
    obtain ⟨hpresent, hdur', hsched', hakw', htaste'⟩ := hsame
    simp only [State.absentOptionsZero, hpresent, hdur', hsched', hakw', htaste']
    exact ⟨hdur, hsched, hakw, htaste⟩

/-! Commands, words and steps. -/

theorem exec_keeps_inv {i : Instr} {s t : State} (h : exec i s = .next t) (hs : s.Inv) : t.Inv where
  errlogReserved := (exec_answered h).errlogReserved hs.errlogReserved
  errorRecorded := (exec_answered h).errorRecorded
  noProfileNoFrame := exec_keeps_noProfileNoFrame h hs.noProfileNoFrame
  stagingConsistent := exec_keeps_stagingConsistent h hs.stagingConsistent
  absentOptionsZero := exec_keeps_absentOptionsZero h hs.absentOptionsZero
  unansweredIsReset := (exec_answered h).unansweredIsReset

/-- An illegal word changes the response only. -/
theorem raise_keeps_inv (e : Status) {s : State} (hs : s.Inv) : (raise e s).Inv := by
  have hanswered : Answered [] s (raise e s) := (writes_refl [] s).answered e 0
  exact ⟨hanswered.errlogReserved hs.errlogReserved, hanswered.errorRecorded, hs.noProfileNoFrame,
    hs.stagingConsistent, hs.absentOptionsZero, hanswered.unansweredIsReset⟩

theorem answerWord_keeps_inv {w : CmdWord} {s t : State} (h : answerWord w s = .next t) (hs : s.Inv) : t.Inv := by
  cases hdecode : decode w with
  | ok i => exact exec_keeps_inv ((answerWord_of_decode hdecode).symm.trans h) hs
  | error e =>
    obtain rfl := Host.Outcome.next.inj ((answerWord_of_illegal hdecode).symm.trans h)
    exact raise_keeps_inv .errIllegal hs

theorem step_keeps_inv {s t : State} (hs : s.Inv) (h : step s = .next t) : t.Inv := by
  obtain ⟨-, rfl⟩ | ⟨rest, -, rfl⟩ | ⟨w, rest, -, hw⟩ := step_cases h
  · exact hs
  · exact inv_reset rest
  · exact answerWord_keeps_inv hw (hs.withPending rest)

/-! `LOAD_OPT` without options (44_construct.md R186). -/

/-- With no option provided the option registers are clear already. -/
theorem clearOptions_eq_self {s : State} (hs : s.absentOptionsZero) (hpresent : s.optPresent = 0) :
    clearOptions s = s := by
  obtain ⟨hdur, hsched, hakw, htaste⟩ := hs
  have habsent (k : Nat) : s.optPresent.getLsbD k = false := by rw [hpresent]; exact BitVec.getLsbD_zero
  have h0 := hdur (habsent 0)
  have h1 := hsched (habsent 1)
  have h2 := hakw (habsent 2)
  have h3 := htaste (habsent 3)
  cases s
  simp_all only [clearOptions]

theorem exec_loadOpt_eq_load {s : State} (hs : s.absentOptionsZero) (hpresent : s.optPresent = 0) :
    exec .loadOpt s = exec .load s := by
  have hclear : clearInput s = clearStaging s := clearOptions_eq_self (s := clearStaging s) hs hpresent
  by_cases hverdict : parseVerdict s.ilen s.icrc = .ok
  · have hconstruct : construct s.ibuf (stagedOptions s) = .ok (s.ibuf, 0) := construct_of_absent hpresent
    rw [exec_loadOpt_of_ok hverdict hconstruct, exec_load_of_ok hverdict, hclear]
    rfl
  · rw [exec_loadOpt_of_badParse rfl hverdict, exec_load_of_ne_ok rfl hverdict, hclear]

end Sys2Proof.Machine

open Sys2Proof Sys2Proof.Machine

/-- Settles O3: a command keeps each clause by what it writes of the clause's registers, a reset restores all of them, and
waiting changes nothing. -/
theorem everyStepKeepsInvariant : Obligations.EveryStepKeepsInvariant := fun _ _ => step_keeps_inv

/-- Settles O2: the reset state has nothing staged, no profile and no option. -/
theorem resetStateMeetsInvariant : Obligations.ResetStateMeetsInvariant := inv_reset []

/-- Settles O1: the step is the reset state with the rest of the list. -/
theorem resetPutsEveryRegisterAtItsResetValue : Obligations.ResetPutsEveryRegisterAtItsResetValue := by
  intro s rest hp
  have hbytes (k : Nat) (h : k < 22) : State.reset.f[k] = 0 ∧ State.reset.ibuf[k] = 0 :=
    ⟨Vector.getElem_replicate h, Vector.getElem_replicate h⟩
  exact ⟨_, step_of_reset hp, hbytes, rfl, rfl, rfl, rfl, rfl, rfl, rfl, rfl, rfl, rfl, rfl, rfl, rfl, rfl⟩

/-- Settles O51: construction without options is the identity, and the option registers hold 0 already. -/
theorem loadOptWithoutOptionsIsLoad : Obligations.LoadOptWithoutOptionsIsLoad :=
  fun _ hinv => exec_loadOpt_eq_load hinv.absentOptionsZero
end

section
/-! PROOF. The statuses of every command (60_exceptions.md R225), the order of `GET_FIELD`'s checks (42_extract.md R126), the
gate map (43_mutate.md R161), and the fields that an applied mutator leaves (R152 to R160). -/

namespace Sys2Proof.Machine

/-! The statuses a body and an answer end with. -/

/-- A body that ends with one of the statuses `sts`. -/
def BodyEndsIn (sts : List Status) (body : Body) : Prop := ∀ f : Frame, (body f).1 ∈ sts

theorem bodyEndsIn_pack {sts : List Status} (hok : .ok ∈ sts) (pack : Frame → Frame) :
    BodyEndsIn sts fun f => (.ok, pack f) := fun _ => hok

theorem BodyEndsIn.gated {sts : List Status} {body : Body} (h : BodyEndsIn sts body) (hignored : .ignored ∈ sts)
    (can : Frame → Bool) : BodyEndsIn sts (gated can body) := by
  intro f
  cases hcan : can f with
  | true => rw [gated_true hcan]; exact h f
  | false => rw [gated_false hcan]; exact hignored

theorem BodyEndsIn.guarded {sts : List Status} {body : Body} (h : BodyEndsIn sts body) {e : Status} (he : e ∈ sts)
    (bad : Frame → Prop) [DecidablePred bad] : BodyEndsIn sts fun f => if bad f then (e, f) else body f := by
  intro f
  by_cases hbad : bad f
  · simpa [hbad] using he
  · simpa [hbad] using h f

/-! The six bodies. -/

theorem bodyEndsIn_setDuration (n : Word) :
    BodyEndsIn [.ok, .ignored, .errRange] (bodySetDuration n) :=
  ((bodyEndsIn_pack (by decide) _).guarded (by decide) _).gated (by decide) _

theorem bodyEndsIn_setSchedule (n : Word) :
    BodyEndsIn [.ok, .ignored, .errRange] (bodySetSchedule n) :=
  ((bodyEndsIn_pack (by decide) _).guarded (by decide) _).gated (by decide) _

theorem bodyEndsIn_setSchedEn (v : Bool) : BodyEndsIn [.ok] (bodySetSchedEn v) :=
  bodyEndsIn_pack (by decide) _

theorem bodyEndsIn_setAkw (v : Bool) : BodyEndsIn [.ok, .ignored] (bodySetAkw v) :=
  (bodyEndsIn_pack (by decide) _).gated (by decide) _

theorem bodyEndsIn_setRiceId (n : Word) : BodyEndsIn [.ok, .ignored] (bodySetRiceId n) :=
  (bodyEndsIn_pack (by decide) _).gated (by decide) _

theorem bodyEndsIn_setTaste (n : Word) :
    BodyEndsIn [.ok, .ignored, .errValidation] (bodySetTaste n) :=
  ((bodyEndsIn_pack (by decide) _).gated (by decide) _).guarded (by decide) _

/-- An answer that ends with one of the statuses `sts`. -/
def EndsIn (sts : List Status) (a : Answer) : Prop := ∀ t : State, a = .next t → t.status ∈ sts

theorem endsIn_respond {sts : List Status} {st : Status} (h : st ∈ sts) (x : Word) (s : State) :
    EndsIn sts (.next (respond st x s)) := by
  rintro _ ⟨⟩
  exact h

theorem endsIn_readFrame {i : Instr} {value : Frame → Word} {s : State} (hread : exec i s = readFrame value s) :
    EndsIn [.ok, .errNoProfile] (exec i s) := by
  rw [hread]
  obtain ⟨-, h⟩ | ⟨-, h⟩ := readFrame_cases value s <;> rw [h]
  · exact endsIn_respond (by decide) _ s
  · exact endsIn_respond (by decide) _ s

theorem endsIn_mutate {i : Instr} {body : Body} {s : State} {sts row : List Status} (hmutate : exec i s = mutate body s)
    (hbody : BodyEndsIn sts body) (hrow : .errNoProfile :: sts ⊆ row) : EndsIn row (exec i s) := by
  rw [hmutate]
  obtain ⟨-, h⟩ | ⟨-, h⟩ := mutate_cases body s <;> rw [h]
  · exact endsIn_respond (hrow (List.mem_cons_of_mem _ (hbody s.f))) _ _
  · exact endsIn_respond (hrow List.mem_cons_self) _ s

theorem endsIn_readByte (k : BitVec 5) (s : State) :
    EndsIn (possibleStatuses (.readByte k)) (exec (.readByte k) s) := by
  show EndsIn (if k.toNat ≤ 21 then [.ok, .errNoProfile] else [.errIllegal]) _
  split
  · next hk => exact endsIn_readFrame (exec_readByte (Nat.lt_succ_of_le hk) s)
  · next hk =>
    rw [show exec (.readByte k) s = answerIllegal s from dif_neg fun h => hk (Nat.le_of_lt_succ h)]
    exact endsIn_respond (by decide) _ s

theorem parseVerdict_mem (n r : Half) : parseVerdict n r ∈ [.ok, .errFormat, .errIntegrity, .errLength] := by
  obtain ⟨-, h⟩ | ⟨-, -, h⟩ | ⟨-, -, -, h⟩ | ⟨-, -, h⟩ := parseVerdict_cases n r <;> rw [h] <;> decide

theorem endsIn_load (s : State) : EndsIn (possibleStatuses .load) (exec .load s) := by
  by_cases hverdict : parseVerdict s.ilen s.icrc = .ok
  · rw [exec_load_of_ok hverdict]; exact endsIn_respond (by decide) _ _
  · rw [exec_load_of_ne_ok rfl hverdict]; exact endsIn_respond (parseVerdict_mem ..) _ _

theorem endsIn_loadOpt (s : State) : EndsIn (possibleStatuses .loadOpt) (exec .loadOpt s) := by
  obtain ⟨e, -, hverdict, hexec⟩ | ⟨e, -, hconstruct, hexec⟩ | ⟨b, -, -, hexec⟩ := exec_loadOpt_cases s <;> rw [hexec]
  · subst hverdict
    exact endsIn_respond (List.mem_append_left [.errRange, .errValidation] (parseVerdict_mem ..)) _ _
  · obtain rfl | rfl := isBodyError_of_construct hconstruct
    · exact endsIn_respond (by decide) _ _
    · exact endsIn_respond (by decide) _ _
  · exact endsIn_respond (by decide) _ _

theorem endsIn_serialize (s : State) : EndsIn (possibleStatuses .serialize) (exec .serialize s) := by
  cases hvalid : s.valid with
  | true => rw [exec_serialize_of_valid hvalid]; exact endsIn_respond (by decide) _ _
  | false => rw [exec_serialize_of_noProfile hvalid]; exact endsIn_respond (by decide) _ _

/-- The row of R225 of every command. -/
theorem endsIn_exec (i : Instr) (s : State) : EndsIn (possibleStatuses i) (exec i s) :=
  match i with
  | .nop | .crcClear | .crcFeed _ | .crcRead | .crcCheck | .inClear | .inByte _ =>
    endsIn_respond (List.mem_singleton_self _) _ _
  | .optClear | .optDuration _ | .optSchedule _ | .optAkw _ | .optTaste _ =>
    endsIn_respond (List.mem_singleton_self _) _ _
  | .getDevtype => endsIn_readFrame (exec_getDevtype s)
  | .getSubtype => endsIn_readFrame (exec_getSubtype s)
  | .getMenuIndex => endsIn_readFrame (exec_getMenuIndex s)
  | .getMenuId => endsIn_readFrame (exec_getMenuId s)
  | .getFlags => endsIn_readFrame (exec_getFlags s)
  | .getDuration => endsIn_readFrame (exec_getDuration s)
  | .getMaxTime => endsIn_readFrame (exec_getMaxTime s)
  | .getMinTime => endsIn_readFrame (exec_getMinTime s)
  | .getSchedule => endsIn_readFrame (exec_getSchedule s)
  | .getSchedEn => endsIn_readFrame (exec_getSchedEn s)
  | .getAkw => endsIn_readFrame (exec_getAkw s)
  | .getRiceId => endsIn_readFrame (exec_getRiceId s)
  | .getTaste => endsIn_readFrame (exec_getTaste s)
  | .getCaps => endsIn_readFrame (exec_getCaps s)
  | .getTrailer => endsIn_readFrame (exec_getTrailer s)
  | .readByte k => endsIn_readByte k s
  | .setDuration n => endsIn_mutate (exec_setDuration n s) (bodyEndsIn_setDuration n) (by simp [possibleStatuses])
  | .setSchedule n => endsIn_mutate (exec_setSchedule n s) (bodyEndsIn_setSchedule n) (by simp [possibleStatuses])
  | .setSchedEn v => endsIn_mutate (exec_setSchedEn v s) (bodyEndsIn_setSchedEn v) (by simp [possibleStatuses])
  | .setAkw v => endsIn_mutate (exec_setAkw v s) (bodyEndsIn_setAkw v) (by simp [possibleStatuses])
  | .setRiceId n => endsIn_mutate (exec_setRiceId n s) (bodyEndsIn_setRiceId n) (by simp [possibleStatuses])
  | .setTaste n => endsIn_mutate (exec_setTaste n s) (bodyEndsIn_setTaste n) (by simp [possibleStatuses])
  | .load => endsIn_load s
  | .loadOpt => endsIn_loadOpt s
  | .serialize => endsIn_serialize s

/-! `GET_FIELD` for every argument (R126). -/

/-- Every field id is a command that reads the frame. -/
theorem formField_readFrame {arg : Word} (h : arg.toNat ≤ 14) :
    ∃ i value, formField arg = .ok i ∧ ∀ s, exec i s = readFrame value s := by
  unfold formField
  split
  case h_16 => -- no field id
    exfalso
    simp only [imp_false] at *
    omega
  · exact ⟨_, _, rfl, exec_getDevtype⟩
  · exact ⟨_, _, rfl, exec_getSubtype⟩
  · exact ⟨_, _, rfl, exec_getMenuIndex⟩
  · exact ⟨_, _, rfl, exec_getMenuId⟩
  · exact ⟨_, _, rfl, exec_getFlags⟩
  · exact ⟨_, _, rfl, exec_getDuration⟩
  · exact ⟨_, _, rfl, exec_getMaxTime⟩
  · exact ⟨_, _, rfl, exec_getMinTime⟩
  · exact ⟨_, _, rfl, exec_getSchedule⟩
  · exact ⟨_, _, rfl, exec_getSchedEn⟩
  · exact ⟨_, _, rfl, exec_getAkw⟩
  · exact ⟨_, _, rfl, exec_getRiceId⟩
  · exact ⟨_, _, rfl, exec_getTaste⟩
  · exact ⟨_, _, rfl, exec_getCaps⟩
  · exact ⟨_, _, rfl, exec_getTrailer⟩

/-! The gate map (R161). -/

/-- A gate in front of a body that is never ignored is closed exactly when the answer is `IGNORED`. -/
theorem gated_ignored_iff {can : Frame → Bool} {body : Body} {sts : List Status} (hbody : BodyEndsIn sts body)
    (hnot : .ignored ∉ sts) (f : Frame) : (gated can body f).1 = .ignored ↔ can f = false := by
  cases hcan : can f with
  | true =>
    rw [gated_true hcan]
    exact iff_of_false (fun h => hnot (h ▸ hbody f)) (by decide)
  | false => rw [gated_false hcan]; exact iff_of_true rfl rfl

theorem gated_pack_status (can : Frame → Bool) (pack : Frame → Frame) (f : Frame) :
    (gated can (fun g => (.ok, pack g)) f).1 = if can f then .ok else .ignored := by
  cases hcan : can f with
  | true => rw [gated_true hcan]; rfl
  | false => rw [gated_false hcan]; rfl

/-- On a loaded profile a mutator answers its body's status and leaves its body's frame. -/
theorem mutated {i : Instr} {body : Body} {s t : State} (hmutate : exec i s = mutate body s) (hvalid : s.valid = true)
    (h : exec i s = .next t) : t.status = (body s.f).1 ∧ t.f = (body s.f).2 := by
  obtain rfl := Host.Outcome.next.inj ((exec_of_mutate hmutate hvalid rfl).symm.trans h)
  exact ⟨rfl, rfl⟩

theorem bodySetDuration_ignored_iff (n : Word) (f : Frame) :
    (bodySetDuration n f).1 = .ignored ↔ canSetDuration f = false :=
  gated_ignored_iff (sts := [.ok, .errRange]) ((bodyEndsIn_pack (by decide) _).guarded (by decide) _) (by decide) f

theorem bodySetSchedule_ignored_iff (n : Word) (f : Frame) :
    (bodySetSchedule n f).1 = .ignored ↔ canSchedule f = false :=
  gated_ignored_iff (sts := [.ok, .errRange]) ((bodyEndsIn_pack (by decide) _).guarded (by decide) _) (by decide) f

theorem bodySetTaste_ignored_iff (n : Word) (f : Frame) :
    (bodySetTaste n f).1 = .ignored ↔ n.toNat ≤ 2 ∧ canTaste f = false := by
  by_cases hn : n.toNat ≤ 2
  · rw [bodySetTaste_of_valid hn, gated_ignored_iff (bodyEndsIn_pack (sts := [.ok]) (by decide) _) (by decide)]
    simp [hn]
  · rw [bodySetTaste_of_invalid (Nat.not_le.mp hn)]
    exact iff_of_false (fun h => nomatch h) fun h => hn h.1

/-! Packed fields read back (R46). -/

/-- A byte with a flag in bit 7 and a number below it. -/
theorem toNat_packedByte {q x : Nat} (hq : q ≤ 1) (hx : x < 128) :
    (BitVec.ofNat 8 (128 * q + x)).toNat = 128 * q + x := by
  rw [BitVec.toNat_ofNat, Nat.mod_eq_of_lt (by omega)]

theorem getLsbD_7_eq (b : Byte) : b.getLsbD 7 = decide (b.toNat / 128 = 1) := by
  have hb := b.isLt
  rw [BitVec.getLsbD, Nat.testBit_eq_decide_div_mod_eq]
  exact decide_eq_decide.mpr (by omega)

theorem div_128_eq_toNat (b : Byte) : b.toNat / 128 = (b.getLsbD 7).toNat := by
  have hb := b.isLt
  rw [getLsbD_7_eq]
  obtain h | h : b.toNat / 128 = 0 ∨ b.toNat / 128 = 1 := by omega
  · rw [h]; rfl
  · rw [h]; rfl

/-- The flag of a packed byte. -/
theorem getLsbD_7_packedByte {v : Bool} {x : Nat} (hx : x < 128) :
    (BitVec.ofNat 8 (128 * v.toNat + x)).getLsbD 7 = v := by
  rw [getLsbD_7_eq, toNat_packedByte v.toNat_le hx]
  cases v with
  | false => exact decide_eq_false (by simp; omega)
  | true => exact decide_eq_true (by simp; omega)

/-- The number of a packed byte. -/
theorem low7_packedByte {v : Bool} {x : Nat} (hx : x < 128) :
    ((BitVec.ofNat 8 (128 * v.toNat + x)).extractLsb' 0 7).toNat = x := by
  rw [toNat_low7, toNat_packedByte v.toNat_le hx]
  omega

theorem duration_packDuration {h m : Nat} (hh : h ≤ 255) (hm : m ≤ 255) (f : Frame) :
    duration (packDuration h m f) = h * 60 + m := by
  have h8 : (packDuration h m f)[8] = BitVec.ofNat 8 h := by simp [packDuration]
  have h9 : (packDuration h m f)[9] = BitVec.ofNat 8 m := by simp [packDuration]
  rw [duration, h8, h9, BitVec.toNat_ofNat, BitVec.toNat_ofNat, Nat.mod_eq_of_lt (by omega),
    Nat.mod_eq_of_lt (by omega), Machine.hm]

/-- A packed schedule: the number, the enabled flag, and the auto-keep-warm flag as it was (R156). -/
theorem fields_packSchedule {h m : Nat} (hh : h < 128) (hm : m < 128) (f : Frame) :
    schedule (packSchedule h m f) = h * 60 + m ∧ schedEn (packSchedule h m f) = true ∧
      autoKeepWarm (packSchedule h m f) = autoKeepWarm f := by
  have h14 : (packSchedule h m f)[14] = BitVec.ofNat 8 (128 * true.toNat + h) := by simp [packSchedule_eq hh hm]
  have h15 : (packSchedule h m f)[15] = BitVec.ofNat 8 (128 * (f[15].getLsbD 7).toNat + m) := by
    simp [packSchedule_eq hh hm, div_128_eq_toNat]
  refine ⟨?_, ?_, ?_⟩
  · rw [schedule, schedHours, schedMins, h14, h15, low7_packedByte hh, low7_packedByte hm, Machine.hm]
  · rw [schedEn, h14, getLsbD_7_packedByte hh]
  · rw [autoKeepWarm, h15, getLsbD_7_packedByte hm, autoKeepWarm]

/-- Bit 7 of a byte set: the flag, and the number as it was (R157, R158). -/
theorem fields_withBit7 (x : Byte) (v : Bool) :
    (withBit7 x v).getLsbD 7 = v ∧ ((withBit7 x v).extractLsb' 0 7) = x.extractLsb' 0 7 := by
  have hlow : x.toNat % 128 < 128 := Nat.mod_lt _ (by decide)
  rw [withBit7_eq_ofNat]
  exact ⟨getLsbD_7_packedByte hlow, BitVec.eq_of_toNat_eq (by rw [low7_packedByte hlow, toNat_low7])⟩

theorem fields_packSchedEn (v : Bool) (f : Frame) :
    schedEn (packSchedEn v f) = v ∧ schedule (packSchedEn v f) = schedule f := by
  have h14 : (packSchedEn v f)[14] = withBit7 f[14] v := by simp [packSchedEn]
  have h15 : (packSchedEn v f)[15] = f[15] := by simp [packSchedEn]
  obtain ⟨hflag, hlow⟩ := fields_withBit7 f[14] v
  exact ⟨by rw [schedEn, h14, hflag], by rw [schedule, schedHours, schedMins, h14, h15, hlow]; rfl⟩

theorem fields_packAkw (v : Bool) (f : Frame) :
    autoKeepWarm (packAkw v f) = v ∧ schedule (packAkw v f) = schedule f := by
  have h14 : (packAkw v f)[14] = f[14] := by simp [packAkw]
  have h15 : (packAkw v f)[15] = withBit7 f[15] v := by simp [packAkw]
  obtain ⟨hflag, hlow⟩ := fields_withBit7 f[15] v
  exact ⟨by rw [autoKeepWarm, h15, hflag], by rw [schedule, schedHours, schedMins, h14, h15, hlow]; rfl⟩

theorem riceId_packRiceId (r : Half) (f : Frame) : riceId (packRiceId r f) = r := by
  have hr := r.isLt
  apply BitVec.eq_of_toNat_eq
  rw [packRiceId_eq, riceId, toNat_be16]
  simp
  omega

theorem toNat_taste_packTaste {n : Word} (hn : n.toNat ≤ 2) (f : Frame) : (taste (packTaste n f)).toNat = n.toNat := by
  have h19 : (packTaste n f)[19] = n.extractLsb' 0 8 := by simp [packTaste]
  rw [taste, h19, BitVec.extractLsb'_toNat, Nat.shiftRight_zero, Nat.mod_eq_of_lt (by omega)]

/-! Applied bodies: a body that ends with `OK` has packed its field. -/

theorem bodySetDuration_of_ok {n : Word} {f : Frame} (h : (bodySetDuration n f).1 = .ok) :
    minTime f < maxTime f ∧ duration (bodySetDuration n f).2 = clamp n.toNat (minTime f) (maxTime f) := by
  cases hcan : canSetDuration f with
  | false => exact nomatch ((bodySetDuration_ignored_iff n f).mpr hcan).symm.trans h
  | true =>
    refine ⟨of_decide_eq_true hcan, ?_⟩
    by_cases hfits : clamp n.toNat (minTime f) (maxTime f) / 60 ≤ 255
    · rw [bodySetDuration_of_fits hcan rfl hfits, duration_packDuration hfits (by omega)]
      omega
    · rw [bodySetDuration_of_tooLong hcan rfl (Nat.not_le.mp hfits)] at h
      exact nomatch h

theorem bodySetSchedule_of_ok {n : Word} {f : Frame} (h : (bodySetSchedule n f).1 = .ok) :
    n.toNat / 60 ≤ 127 ∧ (bodySetSchedule n f).2 = packSchedule (n.toNat / 60) (n.toNat % 60) f := by
  cases hcan : canSchedule f with
  | false => exact nomatch ((bodySetSchedule_ignored_iff n f).mpr hcan).symm.trans h
  | true =>
    by_cases hfits : n.toNat / 60 ≤ 127
    · exact ⟨hfits, by rw [bodySetSchedule_of_fits hcan hfits]⟩
    · rw [bodySetSchedule_of_tooLong hcan (Nat.not_le.mp hfits)] at h
      exact nomatch h

theorem gated_pack_of_ok {can : Frame → Bool} {pack : Frame → Frame} {f : Frame}
    (h : (gated can (fun g => (.ok, pack g)) f).1 = .ok) : (gated can (fun g => (.ok, pack g)) f).2 = pack f := by
  cases hcan : can f with
  | false => rw [gated_false hcan] at h; exact nomatch h
  | true => rw [gated_true hcan]

theorem bodySetTaste_of_ok {n : Word} {f : Frame} (h : (bodySetTaste n f).1 = .ok) :
    n.toNat ≤ 2 ∧ (bodySetTaste n f).2 = packTaste n f := by
  by_cases hn : n.toNat ≤ 2
  · rw [bodySetTaste_of_valid hn] at h ⊢
    exact ⟨hn, gated_pack_of_ok h⟩
  · rw [bodySetTaste_of_invalid (Nat.not_le.mp hn)] at h
    exact nomatch h

/-- An applied mutator on a loaded profile: its body has ended with `OK` and left the frame. -/
theorem applied {i : Instr} {body : Body} {s t : State} (hmutate : exec i s = mutate body s) (hvalid : s.valid = true)
    (hok : t.status = .ok) (h : exec i s = .next t) : (body s.f).1 = .ok ∧ t.f = (body s.f).2 := by
  obtain ⟨hst, hf⟩ := mutated hmutate hvalid h
  exact ⟨hst.symm.trans hok, hf⟩

end Sys2Proof.Machine

open Sys2Proof Sys2Proof.Machine

/-- Settles O22: the rows of the table by the shapes of the commands. -/
theorem everyCommandReportsAStatusOfItsRow : Obligations.EveryCommandReportsAStatusOfItsRow := endsIn_exec

/-- Settles O33: the decoder refuses an argument above 14, and every field id is a frame read. -/
theorem getFieldChecksInOrder : Obligations.GetFieldChecksInOrder := by
  intro arg s
  have hdecode : decode (commandWord 0x20 arg) = formField arg := decode_commandWord 0x20 arg
  refine ⟨fun hgt => ?_, fun hle hvalid => ?_, fun hle hvalid => ?_⟩
  · obtain ⟨e, he⟩ := (formField_error_iff arg).mpr hgt
    exact answerWord_of_illegal (hdecode.trans he)
  · obtain ⟨i, value, hi, hread⟩ := formField_readFrame hle
    exact (answerWord_of_decode (hdecode.trans hi)).trans ((hread s).trans (readFrame_invalid hvalid))
  · obtain ⟨i, value, hi, hread⟩ := formField_readFrame hle
    exact ⟨_, (answerWord_of_decode (hdecode.trans hi)).trans ((hread s).trans (readFrame_valid hvalid))⟩

/-- Settles O41: the status is the body's, whose gate decides on `IGNORED`; the other statuses are those of its row. -/
theorem gateMap : Obligations.GateMap := by
  intro s t n v hvalid
  refine ⟨fun h => ?_, fun h => ?_, fun h => ?_, fun h => ?_, fun h => ?_, fun h => ?_⟩
  · rw [(mutated (exec_setDuration n s) hvalid h).1]
    exact ⟨bodySetDuration_ignored_iff n s.f, ne_of_mem_of_not_mem (bodyEndsIn_setDuration n s.f) (by decide)⟩
  · rw [(mutated (exec_setSchedule n s) hvalid h).1]
    exact ⟨bodySetSchedule_ignored_iff n s.f, ne_of_mem_of_not_mem (bodyEndsIn_setSchedule n s.f) (by decide)⟩
  · exact (mutated (exec_setSchedEn v s) hvalid h).1
  · exact (mutated (exec_setAkw v s) hvalid h).1.trans (gated_pack_status ..)
  · exact (mutated (exec_setRiceId n s) hvalid h).1.trans (gated_pack_status ..)
  · rw [(mutated (exec_setTaste n s) hvalid h).1]
    exact ⟨bodySetTaste_ignored_iff n s.f, ne_of_mem_of_not_mem (bodyEndsIn_setTaste n s.f) (by decide)⟩

/-- Settles O42: an applied body has packed its field, and each field reads back what was packed. -/
theorem mutatedFieldsReadBack : Obligations.MutatedFieldsReadBack := by
  intro s t n v hvalid hok
  refine ⟨fun h => ?_, fun h => ?_, fun h => ?_, fun h => ?_, fun h => ?_, fun h => ?_⟩
  · obtain ⟨hst, hf⟩ := applied (exec_setDuration n s) hvalid hok h
    obtain ⟨hlt, hduration⟩ := bodySetDuration_of_ok hst
    rw [hf, hduration, clamp_eq_max_min hlt.le]
    omega
  · obtain ⟨hst, hf⟩ := applied (exec_setSchedule n s) hvalid hok h
    obtain ⟨hhours, hpack⟩ := bodySetSchedule_of_ok hst
    obtain ⟨hschedule, hen, hakw⟩ := fields_packSchedule (h := n.toNat / 60) (m := n.toNat % 60) (by omega) (by omega) s.f
    rw [hf, hpack]
    exact ⟨by rw [hschedule]; omega, hen, hakw⟩
  · obtain ⟨-, hf⟩ := applied (exec_setSchedEn v s) hvalid hok h
    rw [hf]
    exact fields_packSchedEn v s.f
  · obtain ⟨hst, hf⟩ := applied (exec_setAkw v s) hvalid hok h
    rw [hf, bodySetAkw, gated_pack_of_ok hst]
    exact fields_packAkw v s.f
  · obtain ⟨hst, hf⟩ := applied (exec_setRiceId n s) hvalid hok h
    rw [hf, bodySetRiceId, gated_pack_of_ok hst, riceId_packRiceId]
    split
    · next hgt => rw [wrapRiceId_of_gt hgt]; rfl
    · next hle => exact toNat_wrapRiceId_of_le (Nat.not_lt.mp hle)
  · obtain ⟨hst, hf⟩ := applied (exec_setTaste n s) hvalid hok h
    obtain ⟨hn, hpack⟩ := bodySetTaste_of_ok hst
    rw [hf, hpack, toNat_taste_packTaste hn]
end

section
/-! PROOF. Runs of steps (20_memory.md R51) and the clock-edge model (30_encoding.md R67, 70_reset_and_hazards.md R240): what
an edge does in each of the block's states, and the edges from acceptance to completion. -/

namespace Sys2Proof.Machine

/-! Runs of steps. -/

/-- What a word answers does not depend on the host's list, which is kept. -/
theorem answerWord_withPending {w : CmdWord} {s t : State} (h : answerWord w s = .next t) (p : List HostAction) :
    answerWord w { s with pending := p } = .next { t with pending := p } := by
  obtain ⟨W, hanswered⟩ := answerWord_answered h
  rw [answerWord_of_same_registers h fun r => by cases r <;> rfl, ← hanswered.errlog]

/-- Nor on whether a response shows, for one does then. -/
theorem answerWord_withoutResponse (w : CmdWord) (s : State) :
    answerWord w { s with rspValid := false } = answerWord w s := by
  obtain ⟨st, x, u, W, h, -⟩ := answerWord_respond w s
  obtain ⟨W, hanswered⟩ := answerWord_answered h
  rw [answerWord_of_same_registers h fun r => by cases r <;> rfl, ← hanswered.errlog, ← hanswered.pending, h]

theorem run_succ_of_step {s t : State} (h : step s = .next t) (k : Nat) :
    Host.Core.run core (k + 1) s = Host.Core.run core k t := by
  have hcore : core.step s = .next t := h
  exact (Host.Core.run.eq_2 core s k).trans (by rw [hcore])

/-- Steps over a list of words answer the words in order. -/
theorem run_eq_answerWords (ws : List CmdWord) (s : State) (hp : s.pending = ws.map .command) :
    Host.Core.run core ws.length s = answerWords ws { s with pending := [] } := by
  induction ws generalizing s with
  | nil =>
    show Host.Outcome.next s = .next { s with pending := [] }
    rw [← show s.pending = [] from hp]
  | cons w rest ih =>
    obtain ⟨st, x, u, W, hw, -⟩ := answerWord_respond w { s with pending := [] }
    have hstep : step s = .next { respond st x u with pending := rest.map .command } :=
      (step_of_command hp).trans (answerWord_withPending hw _)
    obtain ⟨W, hanswered⟩ := answerWord_answered hw
    have hnil : (respond st x u).pending = [] := hanswered.pending
    rw [List.length_cons, run_succ_of_step hstep, ih _ rfl, answerWords, hw, andThen_next, ← hnil]

/-! One clock edge, in each of the block's states (R67, R240). -/

theorem clockEdge_reset {latency : Nat} {p : PortInputs} {c : Clocked} (hp : p.rstN = false) :
    clockEdge latency p c = .next (resetEdge c) := by
  rw [clockEdge, hp]
  rfl

/-- A block that has just been reset becomes ready. -/
theorem clockEdge_idle {latency : Nat} {p : PortInputs} {c : Clocked} (hp : p.rstN = true) (hfree : c.inFlight = none)
    (hready : c.cmdReady = false) : clockEdge latency p c = .next { c with cmdReady := true } := by
  rw [clockEdge, hp, hfree, hready]
  rfl

/-- A ready block that is offered nothing waits. -/
theorem clockEdge_wait {latency : Nat} {p : PortInputs} {c : Clocked} (hp : p.rstN = true) (hfree : c.inFlight = none)
    (hready : c.cmdReady = true) (hoffer : p.cmdValid = false) : clockEdge latency p c = .next c := by
  rw [clockEdge, hp, hfree, hready, hoffer]
  rfl

/-- A ready block that is offered a command accepts it. -/
theorem clockEdge_accept {latency : Nat} {p : PortInputs} {c : Clocked} (hp : p.rstN = true) (hfree : c.inFlight = none)
    (hready : c.cmdReady = true) (hoffer : p.cmdValid = true) :
    clockEdge latency p c = .next (acceptEdge latency p.cmdWord c) := by
  rw [clockEdge, hp, hfree, hready, hoffer]
  rfl

/-- A busy block counts down, whatever it is offered. -/
theorem clockEdge_busy {latency : Nat} {p : PortInputs} {c : Clocked} {fl : InFlight} (hp : p.rstN = true)
    (hbusy : c.inFlight = some fl) (hleft : 1 < fl.left) :
    clockEdge latency p c = .next { c with inFlight := some ⟨fl.word, fl.left - 1⟩ } := by
  rw [clockEdge, hp, hbusy]
  exact if_neg (Nat.not_le.mpr hleft)

/-- On the last edge it completes. -/
theorem clockEdge_complete {latency : Nat} {p : PortInputs} {c : Clocked} {fl : InFlight} (hp : p.rstN = true)
    (hbusy : c.inFlight = some fl) (hleft : fl.left ≤ 1) : clockEdge latency p c = completeEdge fl.word c := by
  rw [clockEdge, hp, hbusy]
  exact if_pos hleft

theorem completeEdge_of_answer {w : CmdWord} {c : Clocked} {t : State} (h : answerWord w c.regs = .next t) :
    completeEdge w c = .next ⟨t, none, true⟩ := by
  rw [completeEdge, h]

/-! Sequences of edges. -/

theorem clockEdges_cons {latency : Nat} {p : PortInputs} {ps : List PortInputs} {c d : Clocked}
    (h : clockEdge latency p c = .next d) : clockEdges latency (p :: ps) c = clockEdges latency ps d := by
  rw [clockEdges, h]

/-- A busy block `n` edges before its last one. -/
theorem clockEdges_busy {latency : Nat} {ps : List PortInputs} (hps : ∀ q ∈ ps, q.rstN = true) (s : State)
    (w : CmdWord) (left : Nat) (hlt : ps.length < left) :
    clockEdges latency ps ⟨s, some ⟨w, left⟩, false⟩ = .next ⟨s, some ⟨w, left - ps.length⟩, false⟩ := by
  induction ps generalizing left with
  | nil => rfl
  | cons p rest ih =>
    obtain ⟨hp, hrest⟩ := List.forall_mem_cons.mp hps
    rw [List.length_cons] at hlt ⊢
    rw [clockEdges_cons (clockEdge_busy hp rfl (by show 1 < left; omega)), ih hrest (left - 1) (by omega)]
    rw [Nat.sub_sub, Nat.add_comm 1]

/-- A busy block after its last edge. -/
theorem clockEdges_complete {latency : Nat} {ps : List PortInputs} (hps : ∀ q ∈ ps, q.rstN = true) {s t : State}
    {w : CmdWord} (h : answerWord w s = .next t) {left : Nat} (hleft : 1 ≤ left) (hlen : ps.length = left) :
    clockEdges latency ps ⟨s, some ⟨w, left⟩, false⟩ = .next ⟨t, none, true⟩ := by
  induction ps generalizing left with
  | nil => exact absurd (hlen.trans_ge hleft) (by decide)
  | cons p rest ih =>
    obtain ⟨hp, hrest⟩ := List.forall_mem_cons.mp hps
    rw [List.length_cons] at hlen
    by_cases hlast : left ≤ 1
    · have hdone := (clockEdge_complete (latency := latency) (c := ⟨s, some ⟨w, left⟩, false⟩) hp rfl hlast).trans
        (completeEdge_of_answer h)
      have hnil : rest = [] := List.eq_nil_of_length_eq_zero (by omega)
      rw [clockEdges_cons hdone, hnil, clockEdges]
    · have hnext := clockEdge_busy (latency := latency) (c := ⟨s, some ⟨w, left⟩, false⟩) hp rfl (Nat.not_le.mp hlast)
      rw [clockEdges_cons hnext]
      exact ih hrest (left := left - 1) (by omega) (by omega)

/-- A ready block that is offered nothing keeps all its state. -/
theorem clockEdges_wait {latency : Nat} {ps : List PortInputs} {c : Clocked} (hready : c.cmdReady = true)
    (hfree : c.inFlight = none) (hps : ∀ q ∈ ps, q.rstN = true ∧ q.cmdValid = false) :
    clockEdges latency ps c = .next c := by
  induction ps with
  | nil => rfl
  | cons p rest ih =>
    obtain ⟨⟨hp, hoffer⟩, hrest⟩ := List.forall_mem_cons.mp hps
    rw [clockEdges_cons (clockEdge_wait hp hfree hready hoffer), ih hrest]

/-! The invariant of the clock-edge state (R67). -/

theorem inv_resetEdge (c : Clocked) : (resetEdge c).Inv where
  readyNotBusy hready := nomatch hready
  busyNoResponse _ hbusy := nomatch hbusy
  idleIsReset _ _ := rfl

/-- A ready block meets it, whatever its registers. -/
theorem inv_ready (s : State) : (⟨s, none, true⟩ : Clocked).Inv where
  readyNotBusy _ := rfl
  busyNoResponse _ hbusy := nomatch hbusy
  idleIsReset hidle := nomatch hidle

/-- So does a busy block that shows no response and has an edge left. -/
theorem inv_busy {s : State} {w : CmdWord} {left : Nat} (hrsp : s.rspValid = false) (hleft : 1 ≤ left) :
    (⟨s, some ⟨w, left⟩, false⟩ : Clocked).Inv where
  readyNotBusy hready := nomatch hready
  busyNoResponse := by rintro _ ⟨⟩; exact ⟨hrsp, hleft⟩
  idleIsReset _ hfree := nomatch hfree

theorem clockEdge_keeps_inv {latency : Nat} (p : PortInputs) {c : Clocked} (hlatency : 1 ≤ latency) (hc : c.Inv) :
    ∃ d, clockEdge latency p c = .next d ∧ d.Inv := by
  cases hp : p.rstN with
  | false => exact ⟨_, clockEdge_reset hp, inv_resetEdge c⟩
  | true =>
    obtain ⟨s, inFlight, cmdReady⟩ := c
    cases inFlight with
    | some fl =>
      obtain ⟨hrsp, -⟩ := hc.busyNoResponse fl rfl
      have hready : cmdReady = false := Bool.eq_false_iff.mpr fun h => nomatch hc.readyNotBusy h
      by_cases hleft : fl.left ≤ 1
      · obtain ⟨st, x, u, W, hw, -⟩ := answerWord_respond fl.word s
        exact ⟨_, (clockEdge_complete hp rfl hleft).trans (completeEdge_of_answer hw), inv_ready _⟩
      · subst hready
        exact ⟨_, clockEdge_busy hp rfl (Nat.not_le.mp hleft), inv_busy hrsp (by omega)⟩
    | none =>
      cases cmdReady with
      | false => exact ⟨_, clockEdge_idle hp rfl rfl, inv_ready s⟩
      | true =>
        cases hoffer : p.cmdValid with
        | false => exact ⟨_, clockEdge_wait hp rfl rfl hoffer, hc⟩
        | true => exact ⟨_, clockEdge_accept hp rfl rfl hoffer, inv_busy rfl hlatency⟩

end Sys2Proof.Machine

open Sys2Proof Sys2Proof.Machine

/-- Settles O6: by induction on the words, each step taking one word off the list and leaving the rest. -/
theorem runIsTheLeftFoldOfTheCommands : Obligations.RunIsTheLeftFoldOfTheCommands := run_eq_answerWords

/-- Settles O55: the accepting edge, then the countdown, and on the last edge the answer to the word, which does not
depend on the response withdrawn meanwhile. -/
theorem clockedCommandIsOneTransaction : Obligations.ClockedCommandIsOneTransaction := by
  intro latency c p ps hlatency hready hfree hp hoffer hps
  have haccept := clockEdges_cons (ps := ps) (clockEdge_accept (latency := latency) hp hfree hready hoffer)
  refine ⟨fun hlt => ⟨_, haccept.trans (clockEdges_busy hps _ _ _ hlt), rfl, rfl, rfl⟩, ?_⟩
  rintro rfl
  obtain ⟨st, x, u, W, hw, -⟩ := answerWord_respond p.cmdWord c.regs
  exact ⟨_, hw, haccept.trans (clockEdges_complete hps ((answerWord_withoutResponse _ _).trans hw) hlatency rfl),
    rfl, rfl⟩

/-- Settles O56: by induction on the edges. -/
theorem responseIsStableUntilTheNextAcceptance : Obligations.ResponseIsStableUntilTheNextAcceptance :=
  fun _ _ _ hready hfree => clockEdges_wait hready hfree

/-- Settles O57: the reset edge leaves a block neither ready nor busy, and the next edge makes it ready. -/
theorem resetEdgeAbandonsTheCommandInFlight : Obligations.ResetEdgeAbandonsTheCommandInFlight := by
  intro latency c p q hp hq
  exact ⟨resetEdge c, { resetEdge c with cmdReady := true }, clockEdge_reset hp, rfl, rfl, rfl, rfl,
    clockEdge_idle hq rfl rfl, rfl, rfl, rfl, rfl⟩

/-- Settles O58: an edge leaves a block just reset, a ready one, or a busy one that shows no response. -/
theorem everyClockEdgeKeepsItsInvariant : Obligations.EveryClockEdgeKeepsItsInvariant :=
  fun _ p _ => clockEdge_keeps_inv p
end

section
/-! PROOF. The assembler (30_encoding.md R69): the words of a line, the rows of the mnemonic table, numbers in decimal and in
hexadecimal, and the five kinds of line of O12. -/

namespace Sys2Proof.Machine

/-! The mnemonic table. -/

/-- The form of a command's mnemonic. -/
def formOf (i : Instr) : AsmForm :=
  match i with
  | .crcFeed _ => .byte .crcFeed
  | .inByte _ => .byte .inByte
  | .readByte _ => .offset .readByte
  | .setDuration _ => .u32 .setDuration
  | .setSchedule _ => .u32 .setSchedule
  | .setSchedEn _ => .bool .setSchedEn
  | .setAkw _ => .bool .setAkw
  | .setRiceId _ => .u32 .setRiceId
  | .setTaste _ => .u32 .setTaste
  | .optDuration _ => .u32 .optDuration
  | .optSchedule _ => .u32 .optSchedule
  | .optAkw _ => .bool .optAkw
  | .optTaste _ => .u32 .optTaste
  | i => .noOperand i

/-- The table has a row for every command. -/
theorem mem_asmTable (i : Instr) : (mnemonicOf i, formOf i) ∈ asmTable := by
  cases i <;> simp [asmTable, mnemonicOf, formOf]

/-- A command that a form can give. -/
def AsmForm.sample (form : AsmForm) : Instr :=
  match form with
  | .noOperand i => i
  | .byte mk => mk 0
  | .bool mk => mk false
  | .u32 mk => mk 0
  | .offset mk => mk 0

/-- And no other row. -/
theorem mnemonic_of_mem_asmTable : ∀ row ∈ asmTable, row.1 = mnemonicOf row.2.sample := by decide

theorem isLineWord_of_mem_asmTable : ∀ row ∈ asmTable, isLineWord row.1.toList = true := by decide

theorem asmTable_nodup : (asmTable.map fun row => row.1.toList).Nodup := by
  have hnames : (asmTable.map Prod.fst).Nodup := by decide
  have hlists : ((asmTable.map Prod.fst).map String.toList).Nodup :=
    hnames.map fun _ _ => String.toList_injective
  rwa [List.map_map] at hlists

/-- Looking a key up finds its row. -/
theorem find?_eq_some_of_nodup {α β : Type} [BEq β] [LawfulBEq β] {key : α → β} {l : List α} (hnodup : (l.map key).Nodup)
    {a : α} (ha : a ∈ l) : (l.find? fun b => key b == key a) = some a := by
  induction l with
  | nil => exact nomatch ha
  | cons b rest ih =>
    rw [List.map_cons, List.nodup_cons] at hnodup
    obtain rfl | ha := List.mem_cons.mp ha
    · simp
    · have hne : key b ≠ key a := fun h => hnodup.1 (h ▸ List.mem_map_of_mem ha)
      rw [List.find?_cons_of_neg (by simpa using hne), ih hnodup.2 ha]

theorem find?_asmTable {row : String × AsmForm} (h : row ∈ asmTable) :
    (asmTable.find? fun r => r.1.toList == row.1.toList) = some row :=
  find?_eq_some_of_nodup (key := fun row : String × AsmForm => row.1.toList) asmTable_nodup h

/-! The words of a line. -/

/-- A blank at the end of a line is none. -/
theorem wordsOf_append_singleton_blank (word cs : List Char) : wordsOf word (cs ++ [' ']) = wordsOf word cs := by
  induction cs generalizing word with
  | nil => simp [wordsOf, isBlank]
  | cons c cs ih => simp [wordsOf, ih]

/-- A comment after a blank is not read. -/
theorem assembleLine_comment {cs : List Char} (h : ∀ c ∈ cs, c ≠ ';') (comment : List Char) :
    assembleLine (cs ++ ' ' :: ';' :: comment) = assembleLine cs := by
  have hstrip : withoutComment (cs ++ ' ' :: ';' :: comment) = cs ++ [' '] := by
    rw [withoutComment, List.takeWhile_append_of_pos (by simpa using h)]
    simp
  simp only [assembleLine, readLine, hstrip, wordsOf_append_singleton_blank, withoutComment_eq_self cs h]

/-- A line of a mnemonic alone. -/
theorem assembleLine_one {row : String × AsmForm} (hrow : row ∈ asmTable) :
    assembleLine row.1.toList = (row.2.assemble []).map fun i => some (encode i) := by
  obtain ⟨hne, hword⟩ := (isLineWord_iff _).mp (isLineWord_of_mem_asmTable row hrow)
  have hwords : wordsOf [] (withoutComment row.1.toList) = [row.1.toList] := by
    rw [withoutComment_eq_self _ fun c hc => (hword c hc).2, wordsOf_last _ _ (fun c hc => (hword c hc).1) (.inr hne)]
    rfl
  simp only [assembleLine, readLine, hwords, find?_asmTable hrow]
  cases row.2.assemble [] <;> rfl

/-- A line of a mnemonic of the table and one operand. -/
theorem assembleLine_operand {row : String × AsmForm} (hrow : row ∈ asmTable) {operand : List Char}
    (ho : isLineWord operand = true) :
    assembleLine (row.1.toList ++ ' ' :: operand) = (row.2.assemble [operand]).map fun i => some (encode i) :=
  assembleLine_two _ _ row (isLineWord_of_mem_asmTable row hrow) ho (find?_asmTable hrow)

/-- A line whose first word is no mnemonic, whatever follows. -/
theorem assembleLine_unknown {word : List Char} (rest : List Char) (hword : isLineWord word = true)
    (hunknown : ∀ i : Instr, word ≠ (mnemonicOf i).toList) :
    assembleLine (word ++ ' ' :: rest) = .error .unknownMnemonic := by
  obtain ⟨hne, hchars⟩ := (isLineWord_iff word).mp hword
  have hstrip : withoutComment (word ++ ' ' :: rest) = word ++ ' ' :: withoutComment rest := by
    rw [withoutComment, List.takeWhile_append_of_pos (by simpa using fun c hc => (hchars c hc).2)]
    rfl
  have hfind : (asmTable.find? fun row => row.1.toList == word) = none := by
    refine List.find?_eq_none.mpr fun row hrow heq => hunknown row.2.sample ?_
    rw [← mnemonic_of_mem_asmTable row hrow]
    exact (beq_iff_eq.mp heq).symm
  simp only [assembleLine, readLine, hstrip, wordsOf_append_blank _ _ _ (fun c hc => (hchars c hc).1) (.inr hne),
    List.reverse_nil, List.nil_append, hfind]
  rfl

/-! Digits and numbers. -/

/-- A digit is a letter of a word. -/
theorem isLetter_of_hexDigit {c : Char} {d : Nat} (h : hexDigit c = some d) : isBlank c = false ∧ c ≠ ';' := by
  refine ⟨Bool.eq_false_iff.mpr fun hblank => ?_, ?_⟩
  · simp only [isBlank, Bool.or_eq_true, beq_iff_eq] at hblank
    obtain rfl | rfl := hblank
    · exact nomatch (show hexDigit ' ' = none from rfl).symm.trans h
    · exact nomatch (show hexDigit '\t' = none from rfl).symm.trans h
  · rintro rfl
    exact nomatch (show hexDigit ';' = none from rfl).symm.trans h

theorem readDigits_append (base : Nat) (digit : Char → Option Nat) (acc : Nat) (a b : List Char) :
    readDigits base digit acc (a ++ b) = (readDigits base digit acc a).bind fun n => readDigits base digit n b := by
  induction a generalizing acc with
  | nil => rfl
  | cons c a ih => simp only [List.cons_append, readDigits, ih, Option.bind_assoc]

theorem hexDigit_upper {d : Nat} (h : d < 16) : hexDigit ("0123456789ABCDEF".toList.getD d '0') = some d := by
  interval_cases d <;> rfl

/-- The digits the assembler's text has of a number read as the number. -/
theorem readDigits_hexDigits {n x : Nat} (h : x < 16 ^ n) : readDigits 16 hexDigit 0 (hexDigits n x) = some x := by
  induction n generalizing x with
  | zero => rw [Nat.lt_one_iff.mp h]; rfl
  | succ n ih =>
    have hdiv : x / 16 < 16 ^ n := Nat.div_lt_of_lt_mul (by rwa [Nat.pow_succ, Nat.mul_comm] at h)
    rw [hexDigits, readDigits_append, ih hdiv]
    simp only [Option.bind_some, readDigits, hexDigit_upper (Nat.mod_lt x (by decide)), Nat.div_add_mod']

theorem isLetter_of_mem_hexDigits {n x : Nat} : ∀ c ∈ hexDigits n x, isBlank c = false ∧ c ≠ ';' := by
  induction n generalizing x with
  | zero => exact fun c hc => nomatch hc
  | succ n ih =>
    intro c hc
    obtain hc | hc := List.mem_append.mp hc
    · exact ih c hc
    · obtain rfl := List.mem_singleton.mp hc
      exact isLetter_of_hexDigit (hexDigit_upper (Nat.mod_lt x (by decide)))

/-- A `0x` number with at least one digit. -/
theorem readNumber_hex {ds : List Char} (h : ds ≠ []) : readNumber ('0' :: 'x' :: ds) = readDigits 16 hexDigit 0 ds := by
  cases ds with
  | nil => exact absurd rfl h
  | cons d ds => rfl

theorem hexDigits_succ_ne_nil (n x : Nat) : hexDigits (n + 1) x ≠ [] := by simp [hexDigits]

/-- A decimal digit is not the `x` of `0x`. -/
theorem digitChar_ne_x {d : Nat} (h : d < 10) : d.digitChar ≠ 'x' := by
  interval_cases d <;> decide

/-- A text whose second letter is not that `x` is read as decimal. -/
theorem readNumber_of_no_x {c : Char} {cs : List Char} (h : ∀ tail, cs ≠ 'x' :: tail) :
    readNumber (c :: cs) = readDigits 10 decimalDigit 0 (c :: cs) := by
  unfold readNumber
  split
  · next heq => exact nomatch heq
  · next heq => exact absurd (List.cons.inj heq).2 (h _)
  · next heq => exact absurd (List.cons.inj heq).2 (h _)
  · next heq => rw [heq]

/-- A decimal number with at least one digit. -/
theorem readNumber_decimal {digits : List Nat} (hne : digits ≠ []) (h : ∀ d ∈ digits, d < 10) :
    readNumber (digits.map Nat.digitChar) = some (digitsValue 10 digits) := by
  have hread : readDigits 10 decimalDigit 0 (digits.map Nat.digitChar) = some (digitsValue 10 digits) :=
    readDigits_map _ _ _ _ fun d hd => decimalDigit_digitChar (h d hd)
  rw [← hread]
  cases digits with
  | nil => exact absurd rfl hne
  | cons d ds =>
    refine readNumber_of_no_x fun tail htail => ?_
    obtain ⟨e, he, hx⟩ := List.mem_map.mp (htail ▸ List.mem_cons_self : 'x' ∈ ds.map Nat.digitChar)
    exact digitChar_ne_x (h e (List.mem_cons_of_mem d he)) hx

/-- A hexadecimal number in lower case. -/
theorem readNumber_lowerHex {digits : List Nat} (hne : digits ≠ []) (h : ∀ d ∈ digits, d < 16) :
    readNumber ('0' :: 'x' :: digits.map Nat.digitChar) = some (digitsValue 16 digits) := by
  rw [readNumber_hex (by simpa using hne)]
  exact readDigits_map _ _ _ _ fun d hd => hexDigit_digitChar (h d hd)

/-- Digits make a word. -/
theorem isLineWord_digits {digits : List Nat} (hne : digits ≠ []) (h : ∀ d ∈ digits, d < 16) :
    isLineWord (digits.map Nat.digitChar) = true := by
  rw [isLineWord_iff]
  refine ⟨by simpa using hne, fun c hc => ?_⟩
  obtain ⟨d, hd, rfl⟩ := List.mem_map.mp hc
  exact isLetter_of_hexDigit (hexDigit_digitChar (h d hd))

/-- `0x` and letters make a word. -/
theorem isLineWord_hex {ds : List Char} (h : ∀ c ∈ ds, isBlank c = false ∧ c ≠ ';') :
    isLineWord ('0' :: 'x' :: ds) = true := by
  rw [isLineWord_iff]
  exact ⟨by simp, by simpa using ⟨by decide, by decide, h⟩⟩

/-! Operands of each form (R62, R69). -/

/-- A row of the table whose form reads a number below a bound. -/
structure ReadsNumber (row : NumericOperand) (form : AsmForm) : Prop where
  mem : (row.mnemonic, form) ∈ asmTable
  missing : form.assemble [] = .error .missingOperand
  operand : ∀ cs, form.assemble [cs] = ((readBelow row.bound cs).map row.command).elim (.error .badOperand) .ok

theorem exists_readsNumber : ∀ row ∈ numericOperands, ∃ form, ReadsNumber row form := by
  have byte {m : String} (mk : Byte → Instr) (h : (m, .byte mk) ∈ asmTable) :
      ∃ form, ReadsNumber ⟨m, 2 ^ 8, fun n => mk (BitVec.ofNat 8 n)⟩ form := ⟨_, h, rfl, fun _ => rfl⟩
  have u32 {m : String} (mk : Word → Instr) (h : (m, .u32 mk) ∈ asmTable) :
      ∃ form, ReadsNumber ⟨m, 2 ^ 32, fun n => mk (BitVec.ofNat 32 n)⟩ form := ⟨_, h, rfl, fun _ => rfl⟩
  have offset : ∃ form, ReadsNumber ⟨"READ_BYTE", 22, fun n => .readByte (BitVec.ofNat 5 n)⟩ form :=
    ⟨_, mem_asmTable (.readByte 0), rfl, fun _ => rfl⟩
  intro row hrow
  simp only [numericOperands, List.mem_append, List.mem_cons, List.not_mem_nil, or_false] at hrow
  obtain ((rfl | rfl | rfl) | rfl | rfl | rfl | rfl) | rfl | rfl | rfl := hrow
  · exact byte .crcFeed (mem_asmTable (.crcFeed 0))
  · exact byte .inByte (mem_asmTable (.inByte 0))
  · exact offset
  · exact u32 .setDuration (mem_asmTable (.setDuration 0))
  · exact u32 .setSchedule (mem_asmTable (.setSchedule 0))
  · exact u32 .setRiceId (mem_asmTable (.setRiceId 0))
  · exact u32 .setTaste (mem_asmTable (.setTaste 0))
  · exact u32 .optDuration (mem_asmTable (.optDuration 0))
  · exact u32 .optSchedule (mem_asmTable (.optSchedule 0))
  · exact u32 .optTaste (mem_asmTable (.optTaste 0))

/-- A line of such a row and a word that reads as the number `x`. -/
theorem ReadsNumber.assembleLine {row : NumericOperand} {form : AsmForm} (h : ReadsNumber row form) {cs : List Char}
    {x : Nat} (hword : isLineWord cs = true) (hread : readNumber cs = some x) :
    assembleLine (row.mnemonic.toList ++ ' ' :: cs) =
      if x < row.bound then .ok (some (encode (row.command x))) else .error .badOperand := by
  rw [assembleLine_operand h.mem hword, h.operand, readBelow, hread, Option.bind_some]
  split <;> rfl

/-- The rows whose form reads a Boolean. -/
theorem mem_asmTable_bool : ∀ row ∈ boolOperands, (row.1, AsmForm.bool row.2) ∈ asmTable := by
  simp [boolOperands, asmTable]

/-- A Boolean operand by its four texts. -/
theorem readBool_eq (cs : List Char) : readBool cs =
    if cs = "0".toList ∨ cs = "false".toList then some false
    else if cs = "1".toList ∨ cs = "true".toList then some true else none := by
  unfold readBool
  by_cases h0 : cs = "0".toList
  · simp [h0]
  · by_cases h1 : cs = "1".toList
    · simp [h1]
    · simp only [h0, h1, if_false, false_or]

/-- A line of a Boolean row and a word. -/
theorem assembleLine_bool {row : String × (Bool → Instr)} (hrow : row ∈ boolOperands) {operand : List Char}
    (hword : isLineWord operand = true) : assembleLine (row.1.toList ++ ' ' :: operand) =
      if operand = "0".toList ∨ operand = "false".toList then .ok (some (encode (row.2 false)))
      else if operand = "1".toList ∨ operand = "true".toList then .ok (some (encode (row.2 true)))
      else .error .badOperand := by
  rw [assembleLine_operand (mem_asmTable_bool row hrow) hword]
  simp only [AsmForm.assemble, readBool_eq]
  split
  · rfl
  · split <;> rfl

/-! The line of a command. -/

/-- A hexadecimal operand of the given number of digits, at least one. -/
theorem isLineWord_hexText (n x : Nat) : isLineWord ('0' :: 'x' :: hexDigits n x) = true :=
  isLineWord_hex isLetter_of_mem_hexDigits

theorem readBelow_hexText {n x bound : Nat} (hx : x < 16 ^ (n + 1)) (hbound : x < bound) :
    readBelow bound ('0' :: 'x' :: hexDigits (n + 1) x) = some x := by
  rw [readBelow, readNumber_hex (hexDigits_succ_ne_nil n x), readDigits_hexDigits hx, Option.bind_some, if_pos hbound]

theorem assemble_byte (mk : Byte → Instr) (b : Byte) :
    (AsmForm.byte mk).assemble ['0' :: 'x' :: hexDigits 2 b.toNat] = .ok (mk b) := by
  rw [AsmForm.assemble, readBelow_hexText b.isLt b.isLt, Option.map_some, BitVec.ofNat_toNat, BitVec.setWidth_eq]
  rfl

theorem assemble_u32 (mk : Word → Instr) (n : Word) :
    (AsmForm.u32 mk).assemble ['0' :: 'x' :: hexDigits 8 n.toNat] = .ok (mk n) := by
  rw [AsmForm.assemble, readBelow_hexText n.isLt n.isLt, Option.map_some, BitVec.ofNat_toNat, BitVec.setWidth_eq]
  rfl

theorem assemble_offset (mk : BitVec 5 → Instr) {k : BitVec 5} (hk : k.toNat ≤ 21) :
    (AsmForm.offset mk).assemble ['0' :: 'x' :: hexDigits 2 k.toNat] = .ok (mk k) := by
  have hdigits : k.toNat < 16 ^ 2 := Nat.lt_of_le_of_lt hk (by decide)
  rw [AsmForm.assemble, readBelow_hexText hdigits (Nat.lt_succ_of_le hk), Option.map_some, BitVec.ofNat_toNat,
    BitVec.setWidth_eq]
  rfl

/-- The line of `i` has as its operand one word that the form of its mnemonic reads as `i`. -/
def HasOperand (i : Instr) : Prop :=
  ∃ cs, operandText i = ' ' :: cs ∧ isLineWord cs = true ∧ (formOf i).assemble [cs] = .ok i

theorem hasOperand_of_bool {mk : Bool → Instr} {v : Bool} (hform : formOf (mk v) = .bool mk)
    (htext : operandText (mk v) = if v then [' ', '1'] else [' ', '0']) : HasOperand (mk v) := by
  cases v with
  | false => exact ⟨['0'], htext, rfl, by rw [hform]; rfl⟩
  | true => exact ⟨['1'], htext, rfl, by rw [hform]; rfl⟩

/-- The line of a command has no operand, or one. -/
theorem operandText_cases {i : Instr} (hwf : i.wellFormed = true) :
    (operandText i = [] ∧ (formOf i).assemble [] = .ok i) ∨ HasOperand i :=
  match i with
  | .nop | .crcClear | .crcRead | .crcCheck | .inClear | .load | .optClear | .loadOpt | .serialize => .inl ⟨rfl, rfl⟩
  | .getDevtype | .getSubtype | .getMenuIndex | .getMenuId | .getFlags | .getDuration | .getMaxTime | .getMinTime
  | .getSchedule | .getSchedEn | .getAkw | .getRiceId | .getTaste | .getCaps | .getTrailer => .inl ⟨rfl, rfl⟩
  | .crcFeed b => .inr ⟨_, rfl, isLineWord_hexText 2 _, assemble_byte .crcFeed b⟩
  | .inByte b => .inr ⟨_, rfl, isLineWord_hexText 2 _, assemble_byte .inByte b⟩
  | .readByte _ => .inr ⟨_, rfl, isLineWord_hexText 2 _, assemble_offset .readByte (of_decide_eq_true hwf)⟩
  | .setDuration n => .inr ⟨_, rfl, isLineWord_hexText 8 _, assemble_u32 .setDuration n⟩
  | .setSchedule n => .inr ⟨_, rfl, isLineWord_hexText 8 _, assemble_u32 .setSchedule n⟩
  | .setRiceId n => .inr ⟨_, rfl, isLineWord_hexText 8 _, assemble_u32 .setRiceId n⟩
  | .setTaste n => .inr ⟨_, rfl, isLineWord_hexText 8 _, assemble_u32 .setTaste n⟩
  | .optDuration n => .inr ⟨_, rfl, isLineWord_hexText 8 _, assemble_u32 .optDuration n⟩
  | .optSchedule n => .inr ⟨_, rfl, isLineWord_hexText 8 _, assemble_u32 .optSchedule n⟩
  | .optTaste n => .inr ⟨_, rfl, isLineWord_hexText 8 _, assemble_u32 .optTaste n⟩
  | .setSchedEn _ => .inr (hasOperand_of_bool rfl rfl)
  | .setAkw _ => .inr (hasOperand_of_bool rfl rfl)
  | .optAkw _ => .inr (hasOperand_of_bool rfl rfl)

/-- A command written without an operand takes none. -/
theorem formOf_of_no_operand {i : Instr} (h : operandText i = []) : formOf i = .noOperand i := by
  cases i with
  | setSchedEn v | setAkw v | optAkw v => cases v <;> exact nomatch h
  | crcFeed | inByte | readByte | setDuration | setSchedule | setRiceId | setTaste => exact nomatch h
  | optDuration | optSchedule | optTaste => exact nomatch h
  | _ => rfl

/-- The line of a command assembles to its word. -/
theorem assembleLine_lineOf {i : Instr} (hwf : i.wellFormed = true) :
    assembleLine (lineOf i) = .ok (some (encode i)) := by
  obtain ⟨htext, hform⟩ | ⟨cs, htext, hword, hform⟩ := operandText_cases hwf
  · rw [lineOf, htext, List.append_nil, assembleLine_one (mem_asmTable i), hform]
    rfl
  · rw [lineOf, htext, assembleLine_operand (mem_asmTable i) hword, hform]
    rfl

/-- The line of a command has no comment. -/
theorem ne_semicolon_of_mem_lineOf {i : Instr} (hwf : i.wellFormed = true) : ∀ c ∈ lineOf i, c ≠ ';' := by
  have hmnemonic := ((isLineWord_iff _).mp (isLineWord_of_mem_asmTable _ (mem_asmTable i))).2
  intro c hc
  obtain hc | hc := List.mem_append.mp hc
  · exact (hmnemonic c hc).2
  · obtain ⟨htext, -⟩ | ⟨cs, htext, hword, -⟩ := operandText_cases hwf
    · exact nomatch htext ▸ hc
    · obtain rfl | hc := List.mem_cons.mp (htext ▸ hc)
      · decide
      · exact (((isLineWord_iff cs).mp hword).2 c hc).2

end Sys2Proof.Machine

open Sys2Proof Sys2Proof.Machine

/-- Settles O12: each kind of line is a mnemonic's row of the table, its form, and the words it is given. -/
theorem assemblerAssemblesEveryCommand : Obligations.AssemblerAssemblesEveryCommand := by
  refine ⟨fun i comment hwf => ?_, fun row hrow => ?_, fun row hrow => ?_, fun i operand htext hword => ?_,
    fun word rest => assembleLine_unknown rest⟩
  · exact ⟨assembleLine_lineOf hwf,
      (assembleLine_comment (ne_semicolon_of_mem_lineOf hwf) comment).trans (assembleLine_lineOf hwf)⟩
  · obtain ⟨form, hform⟩ := exists_readsNumber row hrow
    refine ⟨?_, fun digits hne => ⟨fun hdigits => ?_, fun hdigits => ?_⟩⟩
    · rw [assembleLine_one hform.mem, hform.missing]
      rfl
    · have hword := isLineWord_digits hne fun d hd => Nat.lt_trans (hdigits d hd) (by decide)
      exact hform.assembleLine hword (readNumber_decimal hne hdigits)
    · have hword := isLineWord_hex ((isLineWord_iff _).mp (isLineWord_digits hne hdigits)).2
      exact hform.assembleLine hword (readNumber_lowerHex hne hdigits)
  · have hmissing := assembleLine_one (mem_asmTable_bool row hrow)
    exact ⟨hmissing.trans rfl, fun operand hword => assembleLine_bool hrow hword⟩
  · rw [lineOf, htext, List.append_nil, assembleLine_operand (mem_asmTable i) hword, formOf_of_no_operand htext]
    rfl
end
